-- ==== Sys2Proof/Word.lean ====
section
/-! DEFINITION. The word types of the part and the plainest operations on them: bytes, key sets, the fixed group of four
(block buffers, feeds), and saturating and clamping arithmetic. -/

namespace Sys2Proof

/-- One byte of a frame, of a text or of the attached memory. -/
abbrev Byte := BitVec 8

/-- A set of the 23 keys: bit `n` is the key of index `n` in steno order (00_scope.md, Key names and key sets; R217). -/
abbrev KeySet := BitVec 23

/-- Four like things: the block buffers 0..3 (R26) or the feeds F0..F3 (R157). -/
structure Quad (α : Type) where
  q0 : α
  q1 : α
  q2 : α
  q3 : α
deriving DecidableEq, Repr

/-- The member numbered `i`. -/
def Quad.get {α : Type} (q : Quad α) (i : Fin 4) : α :=
  match i with
  | 0 => q.q0
  | 1 => q.q1
  | 2 => q.q2
  | 3 => q.q3

/-- The group with member `i` replaced. -/
def Quad.set {α : Type} (q : Quad α) (i : Fin 4) (a : α) : Quad α :=
  match i with
  | 0 => { q with q0 := a }
  | 1 => { q with q1 := a }
  | 2 => { q with q2 := a }
  | 3 => { q with q3 := a }

/-- Four times the same value. -/
def Quad.const {α : Type} (a : α) : Quad α := ⟨a, a, a, a⟩

/-- Each member taken through `f`. -/
def Quad.map {α β : Type} (f : α → β) (q : Quad α) : Quad β := ⟨f q.q0, f q.q1, f q.q2, f q.q3⟩

/-- The members in order, 0 first. -/
def Quad.toList {α : Type} (q : Quad α) : List α := [q.q0, q.q1, q.q2, q.q3]

/-- The largest value of a 32-bit counter. -/
abbrev max32 : Nat := 4294967295

/-- The largest value of a 24-bit field (R42, R62). -/
abbrev max24 : Nat := 16777215

/-- The largest value of a 16-bit number. -/
abbrev max16 : Nat := 65535

/-- `n + 1`, holding at `top`. -/
def succHold (top n : Nat) : Nat := if n < top then n + 1 else top

/-- `v` taken to the nearest limit of `lo..hi` (R206). -/
def clampTo (lo hi v : Nat) : Nat := if v < lo then lo else if hi < v then hi else v

/-- `v` taken to the nearest limit of `lo..hi`, for a range with negative values (R4). -/
def clampInt (lo hi v : Int) : Int := if v < lo then lo else if hi < v then hi else v

end Sys2Proof
end

