-- ==== Sys2Proof/Config.lean ====
section
/-! DEFINITION. The free values of the model: constants without a body, so that no proof can see what they are. Each stands
for something spec/ leaves open; notes/assumptions says where each is read. -/

namespace Sys2Proof

/-- Whether byte `i` of the transfer cut or failed as event number `k` had reached the attached memory (R37, R47, R50, R53:
"a partial block", "a partial header"). Read by `Machine.Memory.cut` alone. Log entry 4. -/
opaque Config.byteReached : Nat → Nat → Bool

/-- What a 32-bit counter reads when recovery would have to set it above 4,294,967,295 (R51 states no value there); the argument is
the value that does not fit. Log entry 11. -/
opaque Config.counterPastEnd : Nat → BitVec 32

/-- Byte `i` of a frame or record field when the number `n` to be put in it does not fit its width (R217 states no encoding there).
Log entry 28. -/
opaque Config.fieldByte : Nat → Nat → Byte

end Sys2Proof
end

