-- ==== Sys2Proof/Syntax.lean ====
section
/-! DEFINITION. The commands of the part: one constructor of `Instr` for each row of spec/opcode_table.json, with its operands.
An event row (a timer's expiry, a change of a pin, the end of a transfer) carries what the outside world supplies; a request row
carries the link it arrives on, the frame's tag and the payload's fields as R217 encodes them, with every value a field's bytes can
hold, in range or not. -/

namespace Sys2Proof

/-- The two links (R199): the reporter station's and the bench controller's. -/
inductive Link where
  | reporter
  | bench
deriving DecidableEq, Repr

/-- A request's payload as the link sees it: the fields its own encoding gives, or a payload whose length is not the length its
fields give, which R201 step 4 refuses (R217). -/
inductive Payload (α : Type) where
  | fields (a : α)
  | badLength
deriving DecidableEq, Repr

/-- How a read of a whole slot of the attached memory ends (R46): the device reports a failure, or delivers the bytes it was last
given, or delivers other bytes (a memory that has decayed). -/
inductive SlotRead where
  | failed
  | asHeld
  | altered (bytes : List Byte)
deriving DecidableEq, Repr

/-- How a recovery read of one slot ends (R50): the header read fails, the read of the rest fails, or the slot is read. -/
inductive RecoveryRead where
  | headerFailed
  | restFailed
  | asHeld
  | altered (bytes : List Byte)
deriving DecidableEq, Repr

/-- A dictionary entry as a request carries it (R70, R217): the key's strokes as 24-bit sets, the text, the format flags byte. -/
structure RawEntry where
  key   : List (BitVec 24)
  text  : List Byte
  flags : Byte
deriving DecidableEq, Repr

/-- The starting point of Read Lines (R138). -/
inductive LineStart where
  | serial (n : Nat)
  | pageLine (page line : Nat)
deriving DecidableEq, Repr

/-- Read Lines (R138). -/
structure ReadLinesArgs where
  start : LineStart
  count : Nat
deriving DecidableEq, Repr

/-- Set Mark (R188). -/
structure SetMarkArgs where
  serial : Nat
  kind   : Nat
  label  : Option (List Byte)
deriving DecidableEq, Repr

/-- List Marks (R192). -/
structure ListMarksArgs where
  filter : Nat
  serial : Nat
  id     : Nat
deriving DecidableEq, Repr

/-- Set Translation Parameters (R207): each value given or left out. -/
structure ParamArgs where
  resolution : Option Nat
  width      : Option Nat
  pageLen    : Option Nat
  settle     : Option Nat
  interval   : Option Nat
  deglitch   : Option Nat
  repPresence   : Option Nat
  benchPresence : Option Nat
deriving DecidableEq, Repr

/-- Set Key Conditioning (R4): key index, or 255 for ALL. -/
structure KeyCondArgs where
  key    : Nat
  offset : Int
  gain   : Nat
  press  : Nat
  light  : Nat
deriving DecidableEq, Repr

/-- Set Chord Timing (R5). -/
structure ChordTimingArgs where
  pressCount   : Nat
  releaseCount : Nat
  hysteresis   : Nat
  holdLimit    : Nat
  scanInterval : Nat
deriving DecidableEq, Repr

/-- Edit Line (R136). -/
structure EditLineArgs where
  serial : Nat
  text   : List Byte
deriving DecidableEq, Repr

/-- Set Feed (R159). -/
structure SetFeedArgs where
  feed     : Nat
  audience : Nat
  rate     : Nat
  backfill : Nat
  idle     : Nat
  stall    : Nat
deriving DecidableEq, Repr

/-- Test Feed (R177). -/
structure TestFeedArgs where
  feed  : Nat
  count : Nat
deriving DecidableEq, Repr

/-- The commands: the rows of spec/opcode_table.json in the table's order. -/
inductive Instr where
  /-- POWER_ON (R56): power-on cold reset. -/
  | powerOn
  /-- RSTN_ASSERT (R56). -/
  | rstnAssert
  /-- RSTN_RELEASE (R56). -/
  | rstnRelease
  /-- RESET_PART_TIMEOUT (R68). -/
  | resetPartTimeout
  /-- RECOVERY_SLOT_READ (R50). -/
  | recoverySlotRead (r : RecoveryRead)
  /-- RECOVERY_COMPLETE (R51). -/
  | recoveryComplete
  /-- KEY_SAMPLE (R1): the next conversion of the scan, a raw sample 0..4095. -/
  | keySample (raw : BitVec 12)
  /-- HOLD_TIMER_EXPIRY (R18). -/
  | holdTimerExpiry
  /-- ZEROING_COMPLETE (R13). -/
  | zeroingComplete
  /-- BLOCK_INTERVAL_EXPIRY (R31). -/
  | blockIntervalExpiry
  /-- BLOCK_WRITE_START (R35). -/
  | blockWriteStart
  /-- REPORTER_TRANSFER_START (R34). -/
  | reporterTransferStart
  /-- BLOCK_WRITE_COMPLETE (R36, R37): completed or failed. -/
  | blockWriteComplete (ok : Bool)
  /-- BLOCK_READ_COMPLETE (R46). -/
  | blockReadComplete (r : SlotRead)
  /-- HEADER_CLEAR_COMPLETE (R47): completed or failed. -/
  | headerClearComplete (ok : Bool)
  /-- BUILD_COMPLETE (R78). -/
  | buildComplete
  /-- STROKE_HANDOVER (R94). -/
  | strokeHandover
  /-- RESOLUTION_TIMER_EXPIRY (R98). -/
  | resolutionTimerExpiry
  /-- TIER_CHANGE_NOTICE (R114). -/
  | tierChangeNotice
  /-- SBAR_CHANGE (R144): the level SBAR takes. -/
  | sbarChange (high : Bool)
  /-- DEGLITCH_EXPIRY (R144). -/
  | deglitchExpiry
  /-- FNRDY_CHANGE (R173): the level the feed's FnRDY takes. -/
  | fnrdyChange (feed : Fin 4) (high : Bool)
  /-- FGATE3_CHANGE (R175): the level FGATE3 takes. -/
  | fgate3Change (high : Bool)
  /-- FRAME_COMPLETE (R162). -/
  | frameComplete (feed : Fin 4)
  /-- IDLE_TIMER_EXPIRY (R168). -/
  | idleTimerExpiry (feed : Fin 4)
  /-- STALL_TIMER_EXPIRY (R172). -/
  | stallTimerExpiry (feed : Fin 4)
  /-- PRESENCE_TIMER_EXPIRY (R212). -/
  | presenceTimerExpiry (l : Link)
  /-- FETCH (R204): a transfer whose first byte is 0x00, with `n` bytes clocked. -/
  | fetch (l : Link) (n : Nat)
  /-- FRAME_ERROR (R205): a malformed request frame, its bytes as clocked. -/
  | frameError (l : Link) (bytes : List Byte)
  /-- FRAME_DISCARDED (R203): a request frame that meets a link that is EXECUTING or READY. -/
  | frameDiscarded (l : Link) (bytes : List Byte)
  /-- UNKNOWN_REQUEST (R201): a valid frame whose code names no request. -/
  | unknownRequest (l : Link) (code tag : Byte)
  /-- GET_STATUS (R208). -/
  | getStatus (l : Link) (tag : Byte) (p : Payload Unit)
  /-- READ_ATTENTION (R209). -/
  | readAttention (l : Link) (tag : Byte) (p : Payload Unit)
  /-- READ_LINES (R138). -/
  | readLines (l : Link) (tag : Byte) (p : Payload ReadLinesArgs)
  /-- SET_MARK (R188). -/
  | setMark (l : Link) (tag : Byte) (p : Payload SetMarkArgs)
  /-- REMOVE_MARK (R191): the mark id. -/
  | removeMark (l : Link) (tag : Byte) (p : Payload Nat)
  /-- LIST_MARKS (R192). -/
  | listMarks (l : Link) (tag : Byte) (p : Payload ListMarksArgs)
  /-- READ_FEED_HEALTH (R183). -/
  | readFeedHealth (l : Link) (tag : Byte) (p : Payload Unit)
  /-- SET_TRANSLATION_PARAMETERS (R207). -/
  | setTranslationParameters (l : Link) (tag : Byte) (p : Payload ParamArgs)
  /-- SET_KEY_CONDITIONING (R4). -/
  | setKeyConditioning (l : Link) (tag : Byte) (p : Payload KeyCondArgs)
  /-- SET_CHORD_TIMING (R5). -/
  | setChordTiming (l : Link) (tag : Byte) (p : Payload ChordTimingArgs)
  /-- ZERO_KEYS (R12). -/
  | zeroKeys (l : Link) (tag : Byte) (p : Payload Unit)
  /-- READ_KEY_DEPTHS (R6). -/
  | readKeyDepths (l : Link) (tag : Byte) (p : Payload Unit)
  /-- BEGIN_MAIN_LOAD (R75). -/
  | beginMainLoad (l : Link) (tag : Byte) (p : Payload Unit)
  /-- LOAD_ENTRIES (R76). -/
  | loadEntries (l : Link) (tag : Byte) (p : Payload (List RawEntry))
  /-- END_MAIN_LOAD (R77). -/
  | endMainLoad (l : Link) (tag : Byte) (p : Payload Unit)
  /-- OPEN_GROUP (R81). -/
  | openGroup (l : Link) (tag : Byte) (p : Payload Unit)
  /-- STAGE_DEFINE (R82). -/
  | stageDefine (l : Link) (tag : Byte) (p : Payload RawEntry)
  /-- STAGE_REMOVE (R83): the key. -/
  | stageRemove (l : Link) (tag : Byte) (p : Payload (List (BitVec 24)))
  /-- COMMIT_GROUP (R85). -/
  | commitGroup (l : Link) (tag : Byte) (p : Payload Unit)
  /-- ABANDON_GROUP (R86). -/
  | abandonGroup (l : Link) (tag : Byte) (p : Payload Unit)
  /-- CLEAR_JOB_TIER (R80). -/
  | clearJobTier (l : Link) (tag : Byte) (p : Payload Unit)
  /-- LOOK_UP (R90): the key. -/
  | lookUp (l : Link) (tag : Byte) (p : Payload (List (BitVec 24)))
  /-- OPEN_SESSION (R61). -/
  | openSession (l : Link) (tag : Byte) (p : Payload Unit)
  /-- RECESS (R62). -/
  | recess (l : Link) (tag : Byte) (p : Payload Unit)
  /-- RESUME (R63). -/
  | resume (l : Link) (tag : Byte) (p : Payload Unit)
  /-- CLOSE_SESSION (R64). -/
  | closeSession (l : Link) (tag : Byte) (p : Payload Unit)
  /-- RESET_PART (R68). -/
  | resetPart (l : Link) (tag : Byte) (p : Payload Unit)
  /-- READ_JOURNAL_BLOCK (R45): a block sequence, 0 for OLDEST. -/
  | readJournalBlock (l : Link) (tag : Byte) (p : Payload Nat)
  /-- RELEASE_JOURNAL_BLOCK (R47): a block sequence. -/
  | releaseJournalBlock (l : Link) (tag : Byte) (p : Payload Nat)
  /-- CLOSE_JOURNAL_BLOCK (R48). -/
  | closeJournalBlock (l : Link) (tag : Byte) (p : Payload Unit)
  /-- JOURNAL_SUMMARY (R49). -/
  | journalSummary (l : Link) (tag : Byte) (p : Payload Unit)
  /-- EDIT_LINE (R137). -/
  | editLine (l : Link) (tag : Byte) (p : Payload EditLineArgs)
  /-- SET_FEED (R159). -/
  | setFeed (l : Link) (tag : Byte) (p : Payload SetFeedArgs)
  /-- ENABLE_FEED (R160): the feed number. -/
  | enableFeed (l : Link) (tag : Byte) (p : Payload Nat)
  /-- DISABLE_FEED (R161): the feed number. -/
  | disableFeed (l : Link) (tag : Byte) (p : Payload Nat)
  /-- TEST_FEED (R177). -/
  | testFeed (l : Link) (tag : Byte) (p : Payload TestFeedArgs)
  /-- SET_CLASS (R147): the class number. -/
  | setClass (l : Link) (tag : Byte) (p : Payload Nat)
  /-- HOLD_FEEDS (R174): the set of feeds, bit `n` for feed `n`. -/
  | holdFeeds (l : Link) (tag : Byte) (p : Payload Byte)
  /-- RELEASE_FEEDS (R174). -/
  | releaseFeeds (l : Link) (tag : Byte) (p : Payload Byte)
deriving DecidableEq, Repr

end Sys2Proof
end

