-- ==== Sys2Proof/Machine/Params.lean ====
section
/-! DEFINITION. The numbers of the data sheet: capacities, ranges, defaults and the codes of enumerations. Each is stated once,
with its rule, and used by name. -/

namespace Sys2Proof.Machine

/-! ## Capacities (R208) -/

/-- The key sensors KS0..KS22 (R1). -/
abbrev nKeys : Nat := 23
/-- The slots of the attached memory (R25). -/
abbrev nSlots : Nat := 2048
/-- The bytes of a slot (02_the_stroke_journal.md, Slots and Buffers; R218). -/
abbrev slotBytes : Nat := 1056
/-- The bytes of a block header (R218). -/
abbrev headerBytes : Nat := 32
/-- The entries of a block (R29). -/
abbrev blockEntries : Nat := 64
/-- The entries of the main tier (R74, R76). -/
abbrev mainCapacity : Nat := 131072
/-- The bytes of the main tier's text pool (R76). -/
abbrev poolCapacity : Nat := 1572864
/-- The entries of the job tier (R80). -/
abbrev jobCapacity : Nat := 2048
/-- The changes of a staged group (R82). -/
abbrev groupCapacity : Nat := 32
/-- The entries one Load Entries may carry (R76). -/
abbrev loadCapacity : Nat := 16
/-- The strokes of a key, and of the lookahead (R70, R92). -/
abbrev keyStrokes : Nat := 6
/-- The characters of a dictionary text (R70). -/
abbrev textLimit : Nat := 40
/-- The units of the history (R92). -/
abbrev historyCapacity : Nat := 32
/-- The records of the Line Store (R120). -/
abbrev lineCapacity : Nat := 4096
/-- The records of the Mark Table (R187). -/
abbrev markCapacity : Nat := 64
/-- The characters of a mark's label (R186). -/
abbrev labelLimit : Nat := 12
/-- The serials of an edit queue (R157). -/
abbrev editCapacity : Nat := 16
/-- The records one Read Lines returns (R138). -/
abbrev readLimit : Nat := 8
/-- The records one List Marks returns (R192). -/
abbrev listLimit : Nat := 32
/-- The scans of a zeroing (R12). -/
abbrev zeroScans : Nat := 64
/-- The spread above which a key is UNSTABLE (R13). -/
abbrev zeroSpread : Nat := 64
/-- The largest payload of a link frame (R205, R216). -/
abbrev payloadLimit : Nat := 1100
/-- The number of FREE slots at which JOURNAL_LOW is posted (R39). -/
abbrev lowSlots : Nat := 64

/-! ## Times in ms -/

/-- The time after which a Reset Part takes effect unread (R68). -/
abbrev resetPartWait : Nat := 100
/-- The first presence window after START (R211). -/
abbrev firstPresenceWindow : Nat := 15000

/-! ## Defaults -/

/-- Gain (R3). -/
abbrev defGain : Nat := 64
/-- Press threshold (R3). -/
abbrev defPress : Nat := 600
/-- Light threshold (R3). -/
abbrev defLight : Nat := 0
/-- Press and release confirm counts (R5). -/
abbrev defConfirm : Nat := 2
/-- Hysteresis (R5). -/
abbrev defHyst : Nat := 64
/-- Hold limit (R5). -/
abbrev defHold : Nat := 2000
/-- Scan interval in µs (R1, R5). -/
abbrev defScan : Nat := 500
/-- Block close interval (R31). -/
abbrev defInterval : Nat := 2000
/-- Resolution timer (R97). -/
abbrev defResolution : Nat := 1500
/-- Line width (R121). -/
abbrev defWidth : Nat := 48
/-- Page length (R121). -/
abbrev defPageLen : Nat := 25
/-- Settle depth (R121). -/
abbrev defSettle : Nat := 2
/-- Deglitch setting (R145). -/
abbrev defDeglitch : Nat := 20
/-- Presence time of each link (R207, R214). -/
abbrev defPresence : Nat := 3000
/-- Backfill (R159). -/
abbrev defBackfill : Nat := 25
/-- Idle interval (R159). -/
abbrev defIdle : Nat := 1000
/-- Stall time (R159). -/
abbrev defStall : Nat := 3000

end Sys2Proof.Machine
end

