-- ==== Sys2Proof/Machine/State.lean ====
section
/-! DEFINITION. The state of the HV-2216: every register, table, queue, timer and pin spec/ gives the part, block by block as
00_scope.md lays the blocks out, the attached memory behind the memory port, the queue of waiting commands, and the state right
after a cold reset. All of it is plain data. -/

namespace Sys2Proof.Machine

/-! ## Shared enumerations and timers -/

/-- The proceeding classes, in rising order of restriction (R143). -/
inductive Cls where
  | opn
  | sidebar
  | chambers
deriving DecidableEq, Repr

/-- A timer: stopped, or running toward an expiry given as a value of `State.now` (log entry 1). -/
abbrev Timer := Option Nat

/-! ## Key Sensing Unit (chapter 1) -/

/-- The states of a key (R7, R8, R9). -/
inductive KeySt where
  | up
  | pressing
  | down
  | releasing
  | stuck
deriving DecidableEq, Repr

/-- A key's conditioning record (R3). -/
structure KeyCond where
  offset : Int
  gain   : Nat
  press  : Nat
  light  : Nat
deriving DecidableEq, Repr

/-- One key: its conditioning record, its state machine (R7 to R9), the ignore mark (R10), the light-touched mark (R11) and its
last conditioned depth (R2). -/
structure Key where
  cond   : KeyCond
  st     : KeySt
  count  : Nat
  ignore : Bool
  touched : Bool
  depth  : Nat
deriving DecidableEq, Repr

/-- One key's sums of a running zeroing (R12). -/
structure ZeroAcc where
  sum   : Nat
  count : Nat
  min   : Nat
  max   : Nat
deriving DecidableEq, Repr

/-- A running zeroing: whether its first scan has begun, and the sums of each key (R12). -/
structure Zeroing where
  begun : Bool
  accs  : List ZeroAcc
deriving DecidableEq, Repr

/-- What a completed zeroing did with a key (R13). -/
inductive ZeroOutcome where
  | updated
  | unstable
  | clamped
deriving DecidableEq, Repr

/-- The zeroing result (R13, R14). -/
inductive ZeroResult where
  | none
  | complete (keys : List ZeroOutcome)
  | abandoned
deriving DecidableEq, Repr

/-- The Key Sensing Unit: 23 keys, the chord timing (R5), the scan's place (R1) and the zeroing. -/
structure Ksu where
  keys         : List Key
  pressCount   : Nat
  releaseCount : Nat
  hysteresis   : Nat
  holdLimit    : Nat
  scanInterval : Nat
  scanPos      : Nat
  zeroing      : Option Zeroing
  zeroResult   : ZeroResult
deriving DecidableEq, Repr

/-! ## Chord Former (chapter 1) -/

/-- A stroke as a record (R21). -/
structure Stroke where
  seq   : Nat
  time  : Nat
  press : KeySet
  shadow : KeySet
  cls   : Cls
  held  : Bool
  stuckExcluded : Bool
deriving DecidableEq, Repr

/-- The open chord (R15, R18): press set, start time, its flags and its hold timer. -/
structure Chord where
  press : KeySet
  start : Nat
  held  : Bool
  stuckExcluded : Bool
  hold  : Timer
deriving DecidableEq, Repr

/-- The Chord Former: the open chord and the stroke sequence counter (R20). -/
structure ChordFormer where
  chord : Option Chord
  strokes : Nat
deriving DecidableEq, Repr

/-! ## Session Control (chapter 3) -/

/-- The session states (R55). -/
inductive SessState where
  | start
  | standby
  | live
  | recess
  | closing
deriving DecidableEq, Repr

/-- The causes of a reset (R55). -/
inductive ResetCause where
  | powerOn
  | rstn
  | resetPart
deriving DecidableEq, Repr

/-- Session Control (R55), with the moment at which a taken Reset Part takes effect unread (R68). -/
structure Session where
  st      : SessState
  number  : Nat
  clock   : Nat
  recesses : Nat
  cause   : ResetCause
  resetPartDue : Timer
deriving DecidableEq, Repr

/-! ## Journal Controller (chapter 2) and the attached memory -/

/-- The entry kinds (R218). -/
inductive EntryKind where
  | stroke | gap | cls | mark | unmark | commit | edit | opn | recess | resume | close | restart
deriving DecidableEq, Repr

/-- A journal entry's fields (R218). -/
structure Entry where
  kind  : EntryKind
  attrs : Byte
  seq   : Nat
  time  : Nat
  fieldA : Nat
  fieldB : Nat
deriving DecidableEq, Repr

/-- The close reasons (R218). -/
inductive CloseReason where
  | full | interval | request | recess | close
deriving DecidableEq, Repr

/-- A block in a block buffer: its header fields and its entries (R26, R30, R33); `reason` is absent while it is FILLING. -/
structure Block where
  seq        : Nat
  session    : Nat
  firstEntry : Nat
  incomplete : Bool
  restart    : Bool
  reason     : Option CloseReason
  openTime   : Nat
  closeTime  : Nat
  firstStroke : Option Nat
  lastStroke  : Option Nat
  entries    : List Entry
  crc        : BitVec 16
deriving DecidableEq, Repr

/-- A block buffer (R26). A QUEUED buffer holds the slot of its failed write, and none while no transfer has started for its block. -/
inductive Buffer where
  | free
  | filling (b : Block)
  | queued (b : Block) (slot : Option Nat)
  | writing (b : Block) (slot : Nat)
deriving DecidableEq, Repr

/-- What the slot table records of a stored block (R25), with its first entry sequence, from which recovery sets the entry sequence
counter (R51; log entry 13). -/
structure SlotInfo where
  seq        : Nat
  session    : Nat
  count      : Nat
  firstEntry : Nat
deriving DecidableEq, Repr

/-- A slot record that is not FREE (R25). -/
inductive SlotRec where
  | stored (i : SlotInfo)
  | corrupt (i : SlotInfo)
  | bad
deriving DecidableEq, Repr

/-- The slot table: the slots that are not FREE, in rising order; a slot not listed is FREE (R25). -/
abbrev SlotTable := List (Nat × SlotRec)

/-- The attached memory (02_the_stroke_journal.md, Slots and Buffers): the slots that hold anything but zeros, in rising order, each
with its 1,056 bytes; a slot not listed reads as zeros. -/
abbrev Memory := List (Nat × List Byte)

/-- A reporter transfer: a block read or a header clear of a slot (R34), with the block's sequence. -/
inductive RepTransfer where
  | read (slot seq : Nat)
  | clear (slot seq : Nat)
deriving DecidableEq, Repr

/-- The memory port (R34): idle, or carrying the write of a buffer, or a reporter transfer. -/
inductive Port where
  | idle
  | write (buf : Fin 4) (slot : Nat)
  | reporter (t : RepTransfer)
deriving DecidableEq, Repr

/-- The fault causes (R38). -/
inductive FaultCause where
  | writeFailures
  | sequenceExhausted
deriving DecidableEq, Repr

/-- The journal condition (R27). -/
inductive JCond where
  | normal
  | suspended
  | faulted (c : FaultCause)
deriving DecidableEq, Repr

/-- The Journal Controller. `blockSpent` says that the value at which the block sequence counter stands has been taken (R30), `failedClears`
is the number of header clears that have failed since recovery, which R37 and R39 count toward JOURNAL_LOW (log entry 43), `cursor` is the slot
recovery reads next (R50), `lastStored` and `corruptFound` are what the RESTART entry tells (R52). -/
structure Journal where
  slots    : SlotTable
  buffers  : Quad Buffer
  queue    : List (Fin 4)
  cond     : JCond
  missedStrokes : Nat
  missedOther   : Nat
  firstMissed   : Option Nat
  nextEntry  : Nat
  nextBlock  : Nat
  blockSpent : Bool
  lastSlot   : Nat
  failures   : Nat
  failedClears : Nat
  restartPending : Bool
  lastStored : Nat
  corruptFound : Nat
  interval   : Nat
  intervalTimer : Timer
  port       : Port
  waiting    : Option RepTransfer
  cursor     : Nat
deriving DecidableEq, Repr

/-! ## Dictionary Store (chapter 4) -/

/-- The format flags (R70). -/
structure Fmt where
  attachLeft  : Bool
  attachRight : Bool
  capNext     : Bool
  newLine     : Bool
  glue        : Bool
  suppress    : Bool
deriving DecidableEq, Repr

/-- A dictionary entry (R70). -/
structure DictEntry where
  key  : List KeySet
  text : List Byte
  fmt  : Fmt
deriving DecidableEq, Repr

/-- The main tier's states (R74). -/
inductive MainState where
  | empty
  | loading
  | building
  | ready
deriving DecidableEq, Repr

/-- A staged change (R81 to R83). -/
inductive Staged where
  | define (e : DictEntry)
  | remove (key : List KeySet)
deriving DecidableEq, Repr

/-- The Dictionary Store: both tiers, the staged group when one is open, the group number and the reset discard record (R87). -/
structure Dict where
  mainState : MainState
  main      : List DictEntry
  poolUse   : Nat
  job       : List DictEntry
  group     : Option (List Staged)
  groupNumber : Nat
  resetDiscard : Option Nat
deriving DecidableEq, Repr

/-! ## Translator (chapter 5) -/

/-- A stroke as translation holds it (R93). -/
structure TStroke where
  seq   : Nat
  press : KeySet
  cls   : Cls
deriving DecidableEq, Repr

/-- The carry state (R107). -/
structure Carry where
  cap    : Bool
  attach : Bool
  glue   : Bool
deriving DecidableEq, Repr

/-- How the line of a placement's first character was opened (R102, R127). -/
inductive Opening where
  | wrap
  | forced
  | continued
deriving DecidableEq, Repr

/-- A placement (R102, R127). -/
structure Placement where
  serial  : Nat
  column  : Nat
  count   : Nat
  opening : Opening
deriving DecidableEq, Repr

/-- The kinds of unit (R102). -/
inductive UnitKind where
  | entry
  | untranslate
deriving DecidableEq, Repr

/-- A unit of the history (R102). -/
structure TUnit where
  strokes : List TStroke
  kind    : UnitKind
  text    : List Byte
  fmt     : Fmt
  cls     : Cls
  before  : Carry
  placement : Option Placement
  anchor  : Option Nat
deriving DecidableEq, Repr

/-- The Translator (R92), with the strokes handed over and not yet taken (R94, R118) and the tier-change notices not yet taken
(R114). -/
structure Translator where
  lookahead : List TStroke
  history   : List TUnit
  carry     : Carry
  timer     : Timer
  setting   : Nat
  handed    : List Stroke
  notices   : Nat
deriving DecidableEq, Repr

/-! ## Line Builder and Line Store (chapter 6) -/

/-- The line states (R119). -/
inductive LineState where
  | opn
  | closed
  | settled
  | withdrawn
deriving DecidableEq, Repr

/-- One run of a line's run list (R119). -/
structure Run where
  column : Nat
  first  : Nat
  last   : Nat
deriving DecidableEq, Repr

/-- A line record (R119). -/
structure Line where
  serial : Nat
  page   : Nat
  line   : Nat
  cls    : Cls
  state  : LineState
  revision : Nat
  text   : List Byte
  range  : Option (Nat × Nat)
  edited : Bool
  sent   : Quad Nat
  withdrawSent : Quad Bool
  runs   : List Run
deriving DecidableEq, Repr

/-- The Line Builder and the Line Store (R120, R121). -/
structure LineStore where
  records : List Line
  counter : Nat
  nextPage : Nat
  nextLine : Nat
  openLine : Option Nat
  width   : Nat
  pageLen : Nat
  settle  : Nat
deriving DecidableEq, Repr

/-! ## Class Control (chapter 7) -/

/-- Class Control (R143). -/
structure ClassCtl where
  bench    : Cls
  sbar     : Bool
  timer    : Timer
  setting  : Nat
  effective : Cls
deriving DecidableEq, Repr

/-! ## Feed Controller (chapter 8) -/

/-- The audiences (R156). -/
inductive Audience where
  | bench
  | counsel
  | pub
deriving DecidableEq, Repr

/-- The rates (R157). -/
inductive Rate where
  | b9600
  | b19200
  | b57600
  | b115200
deriving DecidableEq, Repr

/-- The feed states (R158). -/
inductive FeedState where
  | off
  | live
  | held
  | stalled
  | stopping
  | test
deriving DecidableEq, Repr

/-- The health codes (R180). -/
inductive Health where
  | receiverAbsent
  | stalled
  | outOfStep
  | held
  | healthy
  | testing
  | withholding
  | notEnabled
deriving DecidableEq, Repr

/-- A frame in flight: the content copied at its start (R162, R220). `update` tells UPDATE from LINE. -/
inductive FeedFrame where
  | text (update : Bool) (serial page line : Nat) (cls : Cls) (revision : Nat) (text : List Byte)
  | withdraw (serial page line : Nat)
  | withheld (serial page line : Nat) (cls : Cls)
  | idle (held : Bool) (code : Health) (session newest : Nat)
  | test (bytes : List Byte)
deriving DecidableEq, Repr

/-- The outcomes of a line test (R177, R179). -/
inductive TestOutcome where
  | running
  | complete
  | stalled
  | stopped
deriving DecidableEq, Repr

/-- A test record (R177, R178): `seq` holds the next nine bits of the test sequence, bit 0 the next to be sent. -/
structure TestRec where
  asked   : Nat
  sent    : Nat
  outcome : TestOutcome
  seq     : BitVec 9
deriving DecidableEq, Repr

/-- A feed context (R157). `idleDue` says that an IDLE frame is due (R168). -/
structure Feed where
  state    : FeedState
  audience : Audience
  rate     : Rate
  backfill : Nat
  idleInterval : Nat
  stallTime : Nat
  lowWater : Nat
  announced : Nat
  withheld : Bool
  outOfStep : Bool
  benchHold : Bool
  seen     : Bool
  edits    : List Nat
  flight   : Option FeedFrame
  idleTimer : Timer
  idleDue  : Bool
  stallTimer : Timer
  test     : Option TestRec
  health   : Health
deriving DecidableEq, Repr

/-- The Feed Controller: four contexts, and F3's gate (R157, R175). -/
structure FeedCtl where
  ctx  : Quad Feed
  gate : Bool
deriving DecidableEq, Repr

/-! ## Mark Table (chapter 9) -/

/-- The kinds of mark (R186). -/
inductive MarkKind where
  | issue
  | ruling
  | review
deriving DecidableEq, Repr

/-- A mark record (R186). -/
structure Mark where
  id     : Nat
  owner  : Link
  kind   : MarkKind
  serial : Nat
  page   : Nat
  line   : Nat
  time   : Nat
  label  : Option (List Byte)
  detached : Bool
  revised : Bool
deriving DecidableEq, Repr

/-- The Mark Table (R187). -/
structure MarkTable where
  records : List Mark
  lastId  : Nat
deriving DecidableEq, Repr

/-! ## The links (chapter 10) -/

/-- The status codes, in the order of R216. -/
inductive Status where
  | ok | already | busy | notReady | wrongState | notPermitted | unknownRequest | frameError | range | notFound
  | notSettled | notOwner | tableFull | tierFull | poolFull | keyInvalid | outOfOrder | notStored | corrupt | journalFault
deriving DecidableEq, Repr

/-- A formed response (R202, R216) without its link flags, which the fetch fills (R204). -/
structure Response where
  code    : Byte
  tag     : Byte
  status  : Status
  payload : List Byte
deriving DecidableEq, Repr

/-- The exchange state with what its slots hold: the request held while EXECUTING, the response while READY (R199). -/
inductive Exchange where
  | idle
  | executing (code tag : Byte)
  | ready (r : Response)
deriving DecidableEq, Repr

/-- One link (R199). `attn` is the attention latch set, bit by bit as R217 numbers the flags; `fetched` is the model's own: what the last
transfer of the link sent on data out, these bytes and 0x00 in every byte position after them (R200, R204, R214; log entry 25). -/
structure LinkState where
  exch     : Exchange
  discard  : Bool
  attn     : BitVec 20
  latched  : Quad Health
  present  : Bool
  timer    : Timer
  presenceTime : Nat
  fetched  : List Byte
deriving DecidableEq, Repr

/-- The levels on the input pins (00_scope.md, Outside Connections): SBAR, FGATE3, the four FnRDY, and whether RSTN is held
asserted. -/
structure Pins where
  sbar   : Bool
  fgate3 : Bool
  rdy    : Quad Bool
  rstnHeld : Bool
deriving DecidableEq, Repr

/-! ## The machine -/

/-- The state of the part. `now` (elapsed ms) and `events` (the number of transfers that were cut or failed, which indexes the free
values of `Config`) are the model's own; `pending` is the queue of waiting commands, first in first out. -/
structure State where
  ksu     : Ksu
  chords  : ChordFormer
  session : Session
  journal : Journal
  memory  : Memory
  dict    : Dict
  trans   : Translator
  lines   : LineStore
  cls     : ClassCtl
  feeds   : FeedCtl
  marks   : MarkTable
  reporter : LinkState
  bench   : LinkState
  pins    : Pins
  now     : Nat
  events  : Nat
  pending : List Instr
deriving DecidableEq, Repr

/-- The reasons a command could stop the part with a fault: none is ever raised, since spec/ names no condition that stops the part.
-/
inductive Fault where
  /-- Raised by nothing. Safe. -/
  | neverRaised
deriving DecidableEq, Repr

/-- The reasons a command could be refused a meaning. -/
inductive Refusal where
  /-- Raised by an arm of `exec` whose command has no meaning in the model yet: none is left. Safe. -/
  | notModelled (mnemonic : String)
deriving DecidableEq, Repr

/-! ## The state after a cold reset -/

/-- A key after a cold reset (R22). -/
def Key.cold : Key :=
  { cond := { offset := 0, gain := defGain, press := defPress, light := defLight }
    st := .up, count := 0, ignore := false, touched := false, depth := 0 }

/-- The KSU after a cold reset (R22). -/
def Ksu.cold : Ksu :=
  { keys := List.replicate nKeys Key.cold
    pressCount := defConfirm, releaseCount := defConfirm, hysteresis := defHyst, holdLimit := defHold, scanInterval := defScan
    scanPos := 0, zeroing := none, zeroResult := .none }

/-- Session Control on entry to START (R56). -/
def Session.atStart (cause : ResetCause) : Session :=
  { st := .start, number := 0, clock := 0, recesses := 0, cause := cause, resetPartDue := none }

/-- The Journal Controller at the start of recovery (R50), with the BAD slots kept and the block close interval. The counters that
recovery sets (R51) stand at their values for an empty memory until it completes (log entry 27). -/
def Journal.atStart (bad : SlotTable) (interval : Nat) : Journal :=
  { slots := bad, buffers := Quad.const .free, queue := [], cond := .normal
    missedStrokes := 0, missedOther := 0, firstMissed := none
    nextEntry := 1, nextBlock := 1, blockSpent := false, lastSlot := nSlots - 1, failures := 0, failedClears := 0
    restartPending := false, lastStored := 0, corruptFound := 0
    interval := interval, intervalTimer := none, port := .idle, waiting := none, cursor := 0 }

/-- The Dictionary Store after a cold reset (R91). -/
def Dict.cold : Dict :=
  { mainState := .empty, main := [], poolUse := 0, job := [], group := none, groupNumber := 0, resetDiscard := none }

/-- The carry state with all three indications clear (R107). -/
def Carry.clear : Carry := { cap := false, attach := false, glue := false }

/-- The Translator holding nothing, with its timer setting (R118). -/
def Translator.emptied (setting : Nat) : Translator :=
  { lookahead := [], history := [], carry := Carry.clear, timer := none, setting := setting, handed := [], notices := 0 }

/-- The Line Store emptied, with W, L and S (R140, R142). -/
def LineStore.emptied (width pageLen settle : Nat) : LineStore :=
  { records := [], counter := 0, nextPage := 1, nextLine := 1, openLine := none
    width := width, pageLen := pageLen, settle := settle }

/-- A feed after a reset (R185), with the five configured values. -/
def Feed.atReset (audience : Audience) (rate : Rate) (backfill idleInterval stallTime : Nat) : Feed :=
  { state := .off, audience := audience, rate := rate, backfill := backfill, idleInterval := idleInterval, stallTime := stallTime
    lowWater := 1, announced := 0, withheld := false, outOfStep := false, benchHold := false, seen := false
    edits := [], flight := none, idleTimer := none, idleDue := false, stallTimer := none, test := none, health := .notEnabled }

/-- A feed after a cold reset (R185). -/
def Feed.cold : Feed := Feed.atReset .pub .b115200 defBackfill defIdle defStall

/-- The Mark Table emptied (R197, R198). -/
def MarkTable.emptied : MarkTable := { records := [], lastId := 0 }

/-- A link after a reset (R214): the latch set holds RESET_DONE alone, which is bit 0 of the flag word (R217). -/
def LinkState.atReset (presenceTime : Nat) (fetched : List Byte) : LinkState :=
  { exch := .idle, discard := false, attn := 1#20, latched := Quad.const .notEnabled
    present := true, timer := none, presenceTime := presenceTime, fetched := fetched }

/-- The part right after a cold reset (R22, R24, R53, R56, R80, R91, R118, R142, R155, R185, R198, R214), with every input pin at its
inactive level (log entry 6), the attached memory holding nothing (log entry 3) and no command waiting. -/
def State.reset : State :=
  { ksu := Ksu.cold
    chords := { chord := none, strokes := 0 }
    session := Session.atStart .powerOn
    journal := Journal.atStart [] defInterval
    memory := []
    dict := Dict.cold
    trans := Translator.emptied defResolution
    lines := LineStore.emptied defWidth defPageLen defSettle
    cls := { bench := .opn, sbar := false, timer := none, setting := defDeglitch, effective := .opn }
    feeds := { ctx := Quad.const Feed.cold, gate := false }
    marks := MarkTable.emptied
    reporter := LinkState.atReset defPresence []
    bench := LinkState.atReset defPresence []
    pins := { sbar := false, fgate3 := true, rdy := Quad.const false, rstnHeld := false }
    now := 0
    events := 0
    pending := [] }

end Sys2Proof.Machine
end

