-- ==== Sys2Proof/Machine/Formats.lean ====
section
/-! DEFINITION. The byte layouts of chapter 11: numbers, enumerations, link frames, journal blocks and entries, feed frames, the
attention flag word and the CRC-16. -/

namespace Sys2Proof.Machine

/-! ## Numbers and texts (R217) -/

/-- The low `w` bytes of `n`, most significant first. -/
def beDigits : Nat → Nat → List Byte
  | 0, _ => []
  | w + 1, n => BitVec.ofNat 8 (n / 256 ^ w) :: beDigits w n

/-- The field of `w` bytes holding `n`; a number the width does not hold has no stated encoding (log entry 28). -/
def be (w n : Nat) : List Byte :=
  if n < 256 ^ w then beDigits w n else (List.range w).map (Config.fieldByte n)

/-- The number in a field, most significant byte first. -/
def ofBe (bs : List Byte) : Nat := bs.foldl (fun acc b => acc * 256 + b.toNat) 0

/-- A number with negative values, in two's complement (R217). -/
def beSigned (w : Nat) (n : Int) : List Byte := beDigits w (n % (256 ^ w : Nat)).toNat

/-- A flag alone: a set of one flag, bit 0 (R217; log entry 16). -/
def flagByte (b : Bool) : Byte := if b then 1#8 else 0#8

/-- A flag set: bit 0 is the first flag named (R217). -/
def flagBits : List Bool → Nat
  | [] => 0
  | b :: bs => (if b then 1 else 0) + 2 * flagBits bs

/-- A text or label: a length byte and the characters (R217). -/
def textField (t : List Byte) : List Byte := be 1 t.length ++ t

/-- An optional field: a presence byte, and the field when present (R217). -/
def optField {α : Type} (enc : α → List Byte) : Option α → List Byte
  | none => [0#8]
  | some a => 1#8 :: enc a

/-- A list: a count byte and its members (R217). -/
def listField {α : Type} (enc : α → List Byte) (l : List α) : List Byte := be 1 l.length ++ l.flatMap enc

/-- A key set: 3 bytes (R217). -/
def keySetField (k : KeySet) : List Byte := be 3 k.toNat

/-- A dictionary key: a stroke count and 3 bytes for each stroke (R217). -/
def keyField (k : List KeySet) : List Byte := listField keySetField k

/-! ## Enumerations (R217): numbered from 0 in the order the data sheet first lists them -/

/-- OPEN 0, SIDEBAR 1, CHAMBERS 2. -/
def Cls.code : Cls → Nat
  | .opn => 0
  | .sidebar => 1
  | .chambers => 2

/-- The class of a number; none beyond the last value. -/
def Cls.ofCode : Nat → Option Cls
  | 0 => some .opn
  | 1 => some .sidebar
  | 2 => some .chambers
  | _ => none

/-- The class's rank, 1 to 3 (07_proceeding_classes.md, the table of classes). -/
def Cls.rank (c : Cls) : Nat := c.code + 1

/-- The more restrictive of two classes: the one of higher rank. -/
def Cls.max (a b : Cls) : Cls := if a.rank < b.rank then b else a

/-- UP, PRESSING, DOWN, RELEASING, STUCK (R6). -/
def KeySt.code : KeySt → Nat
  | .up => 0
  | .pressing => 1
  | .down => 2
  | .releasing => 3
  | .stuck => 4

/-- UPDATED, UNSTABLE, CLAMPED (R217). -/
def ZeroOutcome.code : ZeroOutcome → Nat
  | .updated => 0
  | .unstable => 1
  | .clamped => 2

/-- START, STANDBY, LIVE, RECESS, CLOSING (R55). -/
def SessState.code : SessState → Nat
  | .start => 0
  | .standby => 1
  | .live => 2
  | .recess => 3
  | .closing => 4

/-- POWER_ON, RSTN, RESET_PART (R55). -/
def ResetCause.code : ResetCause → Nat
  | .powerOn => 0
  | .rstn => 1
  | .resetPart => 2

/-- The cause as the RESTART entry carries it: 1, 2 or 3 (R52). -/
def ResetCause.entryCode (c : ResetCause) : Nat := c.code + 1

/-- The entry kinds' values (R218). -/
def EntryKind.code : EntryKind → Nat
  | .stroke => 1 | .gap => 2 | .cls => 3 | .mark => 4 | .unmark => 5 | .commit => 6
  | .edit => 7 | .opn => 8 | .recess => 9 | .resume => 10 | .close => 11 | .restart => 12

/-- The close reasons' values (R218). -/
def CloseReason.code : CloseReason → Nat
  | .full => 1
  | .interval => 2
  | .request => 3
  | .recess => 4
  | .close => 5

/-- EMPTY, LOADING, BUILDING, READY (R74). -/
def MainState.code : MainState → Nat
  | .empty => 0
  | .loading => 1
  | .building => 2
  | .ready => 3

/-- OPEN, CLOSED, SETTLED, WITHDRAWN (R119). -/
def LineState.code : LineState → Nat
  | .opn => 0
  | .closed => 1
  | .settled => 2
  | .withdrawn => 3

/-- BENCH, COUNSEL, PUBLIC (R156). -/
def Audience.code : Audience → Nat
  | .bench => 0
  | .counsel => 1
  | .pub => 2

/-- The audience of a number. -/
def Audience.ofCode : Nat → Option Audience
  | 0 => some .bench
  | 1 => some .counsel
  | 2 => some .pub
  | _ => none

/-- 9,600, 19,200, 57,600, 115,200 baud (R157). -/
def Rate.code : Rate → Nat
  | .b9600 => 0
  | .b19200 => 1
  | .b57600 => 2
  | .b115200 => 3

/-- The rate of a number. -/
def Rate.ofCode : Nat → Option Rate
  | 0 => some .b9600
  | 1 => some .b19200
  | 2 => some .b57600
  | 3 => some .b115200
  | _ => none

/-- OFF, LIVE, HELD, STALLED, STOPPING, TEST (R157). -/
def FeedState.code : FeedState → Nat
  | .off => 0
  | .live => 1
  | .held => 2
  | .stalled => 3
  | .stopping => 4
  | .test => 5

/-- The health codes' values (R180). -/
def Health.code : Health → Nat
  | .receiverAbsent => 0
  | .stalled => 1
  | .outOfStep => 2
  | .held => 3
  | .healthy => 4
  | .testing => 5
  | .withholding => 6
  | .notEnabled => 7

/-- RUNNING, COMPLETE, STALLED, STOPPED (R177, R179). -/
def TestOutcome.code : TestOutcome → Nat
  | .running => 0
  | .complete => 1
  | .stalled => 2
  | .stopped => 3

/-- ISSUE, RULING, REVIEW (R186). -/
def MarkKind.code : MarkKind → Nat
  | .issue => 0
  | .ruling => 1
  | .review => 2

/-- The kind of mark of a number. -/
def MarkKind.ofCode : Nat → Option MarkKind
  | 0 => some .issue
  | 1 => some .ruling
  | 2 => some .review
  | _ => none

/-- REPORTER 0, BENCH 1, as the owner of a mark (R219). -/
def ownerCode : Link → Nat
  | .reporter => 0
  | .bench => 1

/-- The status numbers 0..19 (R216). -/
def Status.code : Status → Nat
  | .ok => 0 | .already => 1 | .busy => 2 | .notReady => 3 | .wrongState => 4 | .notPermitted => 5 | .unknownRequest => 6
  | .frameError => 7 | .range => 8 | .notFound => 9 | .notSettled => 10 | .notOwner => 11 | .tableFull => 12 | .tierFull => 13
  | .poolFull => 14 | .keyInvalid => 15 | .outOfOrder => 16 | .notStored => 17 | .corrupt => 18 | .journalFault => 19

/-! ## The format flags (R70, R217) -/

/-- No flag. -/
def Fmt.none : Fmt :=
  { attachLeft := false, attachRight := false, capNext := false, newLine := false, glue := false, suppress := false }

/-- The flags of a request's flags byte; bits 6 and 7 are not assigned and are not read (log entry 21). -/
def Fmt.ofByte (b : Byte) : Fmt :=
  { attachLeft := b.getLsbD 0, attachRight := b.getLsbD 1, capNext := b.getLsbD 2, newLine := b.getLsbD 3
    glue := b.getLsbD 4, suppress := b.getLsbD 5 }

/-- The flags byte. -/
def Fmt.byte (f : Fmt) : Byte :=
  BitVec.ofNat 8 (flagBits [f.attachLeft, f.attachRight, f.capNext, f.newLine, f.glue, f.suppress])

/-! ## The requests (R201 catalogue, R217 codes) -/

/-- The 39 requests. -/
inductive Req where
  | getStatus | readAttention | readLines | setMark | removeMark | listMarks | readFeedHealth
  | setTranslationParameters | setKeyConditioning | setChordTiming | zeroKeys | readKeyDepths
  | beginMainLoad | loadEntries | endMainLoad | openGroup | stageDefine | stageRemove | commitGroup | abandonGroup
  | clearJobTier | lookUp
  | openSession | recess | resume | closeSession | resetPart
  | readJournalBlock | releaseJournalBlock | closeJournalBlock | journalSummary
  | editLine
  | setFeed | enableFeed | disableFeed | testFeed
  | setClass | holdFeeds | releaseFeeds
deriving DecidableEq, Repr

/-- The request codes (R217). -/
def Req.code : Req → Byte
  | .getStatus => 0x01#8 | .readAttention => 0x02#8 | .readLines => 0x03#8 | .setMark => 0x04#8 | .removeMark => 0x05#8
  | .listMarks => 0x06#8 | .readFeedHealth => 0x07#8
  | .setTranslationParameters => 0x10#8 | .setKeyConditioning => 0x11#8 | .setChordTiming => 0x12#8 | .zeroKeys => 0x13#8
  | .readKeyDepths => 0x14#8
  | .beginMainLoad => 0x20#8 | .loadEntries => 0x21#8 | .endMainLoad => 0x22#8 | .openGroup => 0x23#8 | .stageDefine => 0x24#8
  | .stageRemove => 0x25#8 | .commitGroup => 0x26#8 | .abandonGroup => 0x27#8 | .clearJobTier => 0x28#8 | .lookUp => 0x29#8
  | .openSession => 0x30#8 | .recess => 0x31#8 | .resume => 0x32#8 | .closeSession => 0x33#8 | .resetPart => 0x34#8
  | .readJournalBlock => 0x40#8 | .releaseJournalBlock => 0x41#8 | .closeJournalBlock => 0x42#8 | .journalSummary => 0x43#8
  | .editLine => 0x50#8
  | .setFeed => 0x60#8 | .enableFeed => 0x61#8 | .disableFeed => 0x62#8 | .testFeed => 0x63#8
  | .setClass => 0x70#8 | .holdFeeds => 0x71#8 | .releaseFeeds => 0x72#8

/-- The requests both links carry (the catalogue of 10_the_reporter_and_bench_links.md). -/
def Req.both : Req → Bool
  | .getStatus | .readAttention | .readLines | .setMark | .removeMark | .listMarks | .readFeedHealth => true
  | _ => false

/-- The requests the bench link alone carries. -/
def Req.benchOnly : Req → Bool
  | .setClass | .holdFeeds | .releaseFeeds => true
  | _ => false

/-- Whether a link carries a request (the catalogue of 10_the_reporter_and_bench_links.md). -/
def Req.carriedBy (r : Req) : Link → Bool
  | .reporter => !r.benchOnly
  | .bench => r.both || r.benchOnly

/-! ## Link frames (R204, R216) -/

/-- The bytes of a response, with the two link flags of the fetch: ATTENTION_PENDING in bit 0, DISCARDED in bit 1. -/
def Response.bytes (r : Response) (pending discarded : Bool) : List Byte :=
  [r.code, r.tag, BitVec.ofNat 8 r.status.code, BitVec.ofNat 8 (flagBits [pending, discarded])]
    ++ be 2 r.payload.length ++ r.payload

/-- The number of bytes of a response. -/
def Response.size (r : Response) : Nat := 6 + r.payload.length

/-- A request frame is malformed: fewer than four bytes, a stated payload length above 1,100, or a length that does not agree
(R205). -/
def malformed (bytes : List Byte) : Bool :=
  bytes.length < 4 || payloadLimit < ofBe ((bytes.drop 2).take 2) || bytes.length ≠ 4 + ofBe ((bytes.drop 2).take 2)

/-! ## The CRC (R221) -/

/-- One shift of the CRC register. -/
def crcShift (c : BitVec 16) : BitVec 16 := if c.getMsbD 0 then (c <<< 1) ^^^ 0x8005#16 else c <<< 1

/-- One byte taken into the CRC register, most significant bit first. -/
def crcByte (c : BitVec 16) (b : Byte) : BitVec 16 := Nat.repeat crcShift 8 (c ^^^ (b.zeroExtend 16 <<< 8))

/-- The CRC-16 of a run of bytes. -/
def crc16 (bs : List Byte) : BitVec 16 := bs.foldl crcByte 0xFFFF#16

/-- The CRC as two bytes, the high byte first. -/
def crcField (c : BitVec 16) : List Byte := be 2 c.toNat

/-! ## Journal blocks (R218, R219) -/

/-- A page and line: 2 bytes of page, then a byte with the line number in bits 4..0 (R219). -/
def pageLine (page line : Nat) : Nat := page * 256 + line

/-- Three bytes of a 24-bit field, the first the most significant. -/
def three (a b c : Nat) : Nat := a * 65536 + b * 256 + c

/-- The class in bits 1 and 0 of an entry's attributes. -/
def clsAttrs (c : Cls) : Byte := BitVec.ofNat 8 c.code

/-- The attributes of a STROKE entry: class, HELD, STUCK_EXCLUDED, SHADOW_PRESENT (R218). -/
def strokeAttrs (k : Stroke) : Byte :=
  BitVec.ofNat 8 (k.cls.code + 4 * flagBits [k.held, k.stuckExcluded, k.shadow ≠ 0])

/-- An entry's 16 bytes. -/
def Entry.bytes (e : Entry) : List Byte :=
  be 1 e.kind.code ++ [e.attrs] ++ be 4 e.seq ++ be 4 e.time ++ be 3 e.fieldA ++ be 3 e.fieldB

/-- Header bytes 0 to 29 of a block. -/
def Block.header (b : Block) : List Byte :=
  be 4 b.seq ++ be 2 b.session ++ be 4 b.firstEntry ++ be 1 b.entries.length
    ++ be 1 (flagBits [b.incomplete, b.restart])
    ++ be 1 ((b.reason.map CloseReason.code).getD 0) ++ [0#8]
    ++ be 4 b.openTime ++ be 4 b.closeTime ++ be 4 (b.firstStroke.getD 0) ++ be 4 (b.lastStroke.getD 0)

/-- The 64 entry positions, zeros after the last used one (R33). -/
def Block.body (b : Block) : List Byte :=
  b.entries.flatMap Entry.bytes ++ List.replicate (16 * (blockEntries - b.entries.length)) 0#8

/-- The CRC of a block: over header bytes 0 to 29 and all 64 entry positions (R33, R221). -/
def Block.computeCrc (b : Block) : BitVec 16 := crc16 (b.header ++ b.body)

/-- A block's 1,056 bytes in slot order. -/
def Block.bytes (b : Block) : List Byte := b.header ++ crcField b.crc ++ b.body

/-- The number in bytes `at .. at + w - 1` of a slot. -/
def fieldAt (bytes : List Byte) (start w : Nat) : Nat := ofBe ((bytes.drop start).take w)

/-- A header is valid (R50). -/
def headerValid (bytes : List Byte) : Bool :=
  fieldAt bytes 0 4 ≠ 0 && fieldAt bytes 6 4 ≠ 0
    && (1 ≤ fieldAt bytes 10 1 && fieldAt bytes 10 1 ≤ blockEntries)
    && (1 ≤ fieldAt bytes 12 1 && fieldAt bytes 12 1 ≤ 5)
    && fieldAt bytes 13 1 = 0
    && fieldAt bytes 11 1 < 4

/-- What the slot table records of a slot with a valid header. -/
def headerInfo (bytes : List Byte) : SlotInfo :=
  { seq := fieldAt bytes 0 4, session := fieldAt bytes 4 2, count := fieldAt bytes 10 1, firstEntry := fieldAt bytes 6 4 }

/-- The CRC recomputed over a slot agrees with the one its header holds (R46, R50, R221). -/
def crcGood (bytes : List Byte) : Bool := (crc16 (bytes.take 30 ++ bytes.drop 32)).toNat = fieldAt bytes 30 2

/-! ## Feed frames (R220) -/

/-- The kind value of a feed frame. -/
def FeedFrame.kind : FeedFrame → Nat
  | .text u .. => if u then 2 else 1
  | .withdraw .. => 3
  | .withheld .. => 4
  | .idle .. => 5
  | .test .. => 6

/-- The payload of a feed frame. -/
def FeedFrame.payload : FeedFrame → List Byte
  | .text _ serial page line cls rev t => be 4 serial ++ be 2 page ++ be 1 line ++ be 1 cls.code ++ be 2 rev ++ textField t
  | .withdraw serial page line => be 4 serial ++ be 2 page ++ be 1 line
  | .withheld serial page line cls => be 4 serial ++ be 2 page ++ be 1 line ++ be 1 cls.code
  | .idle held code session newest => [flagByte held] ++ be 1 code.code ++ be 2 session ++ be 4 newest
  | .test bytes => bytes

/-- The serial that Read Feed Health reports of a frame in flight: that of a LINE, UPDATE, WITHDRAW or WITHHELD frame, each of which names a
line. R183 says 'a line frame' and does not say which these are (log entry 42). -/
def FeedFrame.serial : FeedFrame → Option Nat
  | .text _ n .. => some n
  | .withdraw n .. => some n
  | .withheld n .. => some n
  | _ => none

/-- The bytes of a frame on FnTX: sync, kind, length, payload, CRC (R220). -/
def FeedFrame.bytes (f : FeedFrame) : List Byte :=
  let inner := be 1 f.kind ++ be 1 f.payload.length ++ f.payload
  [0xA5#8, 0x5A#8] ++ inner ++ crcField (crc16 inner)

/-- What FnTX carries in one bit time: the idle level, or a start bit, a data bit or a stop bit of a frame (R161, R220; 08_display_feeds.md,
The Frame Stream). -/
inductive TxBit where
  | idle
  | start
  | data (b : Bool)
  | stop
deriving DecidableEq, Repr

/-- The level of FnTX where spec/ gives it, high for true: FnTX idles high (11_frame_and_record_formats.md, Signals and Supplies). The levels
of start, data and stop bits are not given (log entry 47). -/
def TxBit.level : TxBit → Option Bool
  | .idle => some true
  | .start => none
  | .data _ => none
  | .stop => none

/-- The ten bit times of one byte: a start bit, the eight data bits least significant first, one stop bit (R220). -/
def byteBits (b : Byte) : List TxBit := .start :: (List.range 8).map (fun i => .data (b.getLsbD i)) ++ [.stop]

/-- The bits of a frame as they leave FnTX (R220). -/
def FeedFrame.bits (f : FeedFrame) : List TxBit := f.bytes.flatMap byteBits

/-! ## The test sequence (R178) -/

/-- The next nine bits of the test sequence after one bit has been sent: s(k + 9) = s(k + 5) XOR s(k). -/
def testNext (q : BitVec 9) : BitVec 9 := (q >>> 1) ||| (if q.getLsbD 5 ^^ q.getLsbD 0 then 0x100#9 else 0#9)

/-- The next `n` bits of the test sequence as a number, the earliest the least significant, and the sequence after them. -/
def testBits : Nat → BitVec 9 → Nat × BitVec 9
  | 0, q => (0, q)
  | n + 1, q =>
    let r := testBits n (testNext q)
    ((if q.getLsbD 0 then 1 else 0) + 2 * r.1, r.2)

/-- The next `n` bytes of the test sequence, and the sequence after them. -/
def testBytes : Nat → BitVec 9 → List Byte × BitVec 9
  | 0, q => ([], q)
  | n + 1, q =>
    let b := testBits 8 q
    let r := testBytes n b.2
    (BitVec.ofNat 8 b.1 :: r.1, r.2)

/-- The seed: nine ones (R178). -/
def testSeed : BitVec 9 := 0x1FF#9

/-! ## The written form of a stroke (R100) -/

/-- The character each key is written as, in index order: # S T K P W H R A O * E U F R P B L G T S D Z. -/
def keyChars : List Byte :=
  [0x23#8, 0x53#8, 0x54#8, 0x4B#8, 0x50#8, 0x57#8, 0x48#8, 0x52#8, 0x41#8, 0x4F#8, 0x2A#8, 0x45#8, 0x55#8, 0x46#8, 0x52#8, 0x50#8,
   0x42#8, 0x4C#8, 0x47#8, 0x54#8, 0x53#8, 0x44#8, 0x5A#8]

/-- The characters of the keys of a set among the indexes `start ..`. -/
def charsFrom (k : KeySet) : Nat → List Byte → List Byte
  | _, [] => []
  | i, c :: cs => if k.getLsbD i then c :: charsFrom k (i + 1) cs else charsFrom k (i + 1) cs

/-- The written form of a stroke: a hyphen stands before the first right-bank key when no key of the indexes 8..12 is pressed. -/
def writtenForm (k : KeySet) : List Byte :=
  let left := charsFrom k 0 (keyChars.take 8)
  let middle := charsFrom k 8 ((keyChars.drop 8).take 5)
  let right := charsFrom k 13 (keyChars.drop 13)
  left ++ middle ++ (if middle = [] && right ≠ [] then [0x2D#8] else []) ++ right

end Sys2Proof.Machine
end

