-- ==== Sys2Proof/Machine/Memory.lean ====
section
/-! DEFINITION. The attached memory and the slot table as sparse tables in one canonical form, with the operations the Journal Controller
makes on them: read, write, header clear, a transfer cut or failed part way, the counts of slots, and the searches. -/

namespace Sys2Proof.Machine

/-! ## Sparse tables: slots in rising order -/

/-- The value listed for slot `a`. -/
def sparseGet {β : Type} : List (Nat × β) → Nat → Option β
  | [], _ => none
  | (k, v) :: r, a => if k = a then some v else sparseGet r a

/-- The table with slot `a` listing `v`. -/
def sparsePut {β : Type} (a : Nat) (v : β) : List (Nat × β) → List (Nat × β)
  | [] => [(a, v)]
  | (k, w) :: r => if a < k then (a, v) :: (k, w) :: r else if a = k then (a, v) :: r else (k, w) :: sparsePut a v r

/-- The table with slot `a` not listed. -/
def sparseDrop {β : Type} (a : Nat) : List (Nat × β) → List (Nat × β)
  | [] => []
  | (k, w) :: r => if k = a then r else (k, w) :: sparseDrop a r

/-- The listed slots rise strictly. -/
abbrev sparseRising {β : Type} (t : List (Nat × β)) : Prop := (t.map Prod.fst).Pairwise (· < ·)

/-! ## The attached memory -/

/-- What an unlisted slot reads as: 1,056 zero bytes (log entry 3). -/
def blankSlot : List Byte := List.replicate slotBytes 0#8

/-- The canonical form: slots strictly rising, none listed that reads as an unlisted one does. -/
abbrev Memory.wf (m : Memory) : Prop := sparseRising m ∧ ∀ p ∈ m, p.2 ≠ blankSlot

/-- The 1,056 bytes of a slot. -/
def Memory.read (m : Memory) (slot : Nat) : List Byte := (sparseGet m slot).getD blankSlot

/-- The memory after a whole slot has been written. -/
def Memory.write (m : Memory) (slot : Nat) (bytes : List Byte) : Memory :=
  if bytes = blankSlot then sparseDrop slot m else sparsePut slot bytes m

/-- A slot's bytes with zeros over its 32 header bytes (R47). -/
def clearedHeader (bytes : List Byte) : List Byte := List.replicate headerBytes 0#8 ++ bytes.drop headerBytes

/-- Bytes `old` of which the positions reached have become those of `new`. -/
def mixBytes (reached : Nat → Bool) : Nat → List Byte → List Byte → List Byte
  | _, [], _ => []
  | _, o :: os, [] => o :: os
  | i, o :: os, n :: ns => (if reached i then n else o) :: mixBytes reached (i + 1) os ns

/-- The memory after a transfer of `new` to a slot was cut or failed, as event number `k`: each byte is the old one or the new one
(log entry 4). -/
def Memory.cut (m : Memory) (k slot : Nat) (new : List Byte) : Memory :=
  m.write slot (mixBytes (Config.byteReached k) 0 (m.read slot) new)

/-- 1,056 bytes the device delivered. -/
def fitSlot (bytes : List Byte) : List Byte := (bytes ++ blankSlot).take slotBytes

/-! ## The slot table (R25) -/

/-- What is known of the stored block of a slot record, STORED or STORED-CORRUPT. -/
def SlotRec.info : SlotRec → Option SlotInfo
  | .stored i => some i
  | .corrupt i => some i
  | .bad => none

/-- The slot is FREE. -/
def slotFree (t : SlotTable) (slot : Nat) : Bool := (sparseGet t slot).isNone

/-- The slot is BAD. -/
def slotBad (t : SlotTable) (slot : Nat) : Bool := sparseGet t slot = some .bad

/-- The number of FREE slots. -/
def freeSlots (t : SlotTable) : Nat := nSlots - t.length

/-- The number of STORED slots. -/
def storedSlots (t : SlotTable) : Nat := (t.filter (fun p => match p.2 with | .stored _ => true | _ => false)).length

/-- The number of STORED-CORRUPT slots. -/
def corruptSlots (t : SlotTable) : Nat := (t.filter (fun p => match p.2 with | .corrupt _ => true | _ => false)).length

/-- The number of BAD slots. -/
def badSlots (t : SlotTable) : Nat := (t.filter (fun p => p.2 = .bad)).length

/-- The BAD records alone (R50, R54). -/
def onlyBad (t : SlotTable) : SlotTable := t.filter (fun p => p.2 = .bad)

/-- The stored blocks: slot and what is recorded of the block (R25). -/
def storedBlocks (t : SlotTable) : List (Nat × SlotInfo) := t.filterMap (fun p => p.2.info.map (fun i => (p.1, i)))

/-- The stored block of the lowest block sequence. -/
def lowestBlock : List (Nat × SlotInfo) → Option (Nat × SlotInfo)
  | [] => none
  | p :: r =>
    match lowestBlock r with
    | none => some p
    | some q => if q.2.seq < p.2.seq then some q else some p

/-- The stored block of the highest block sequence. -/
def highestBlock : List (Nat × SlotInfo) → Option (Nat × SlotInfo)
  | [] => none
  | p :: r =>
    match highestBlock r with
    | none => some p
    | some q => if p.2.seq < q.2.seq then some q else some p

/-- The oldest stored block (R25). -/
def oldestStored (t : SlotTable) : Option (Nat × SlotInfo) := lowestBlock (storedBlocks t)

/-- The newest stored block (R25). -/
def newestStored (t : SlotTable) : Option (Nat × SlotInfo) := highestBlock (storedBlocks t)

/-- The stored block of a block sequence. -/
def findStored (t : SlotTable) (seq : Nat) : Option (Nat × SlotInfo) := (storedBlocks t).find? (fun p => p.2.seq = seq)

/-- The first FREE slot of the next `n` from `slot` upward, wrapping from 2,047 to 0. -/
def searchFree (t : SlotTable) : Nat → Nat → Option Nat
  | 0, _ => none
  | n + 1, slot => if slotFree t slot then some slot else searchFree t n ((slot + 1) % nSlots)

/-- The round-robin search from the slot after the last-assigned one (R35). -/
def nextFree (t : SlotTable) (last : Nat) : Option Nat := searchFree t nSlots ((last + 1) % nSlots)

/-- The first slot at or above `slot`, of the next `n`, that is not BAD: the one recovery reads next (R50). -/
def searchRead (t : SlotTable) : Nat → Nat → Option Nat
  | 0, _ => none
  | n + 1, slot => if slotBad t slot then searchRead t n (slot + 1) else some slot

/-- The slot recovery reads next, or none when every slot that is not BAD has been classified. -/
def nextRead (t : SlotTable) (cursor : Nat) : Option Nat := searchRead t (nSlots - cursor) cursor

/-- A slot's stored block gives way to another of the same block sequence: STORED goes before STORED-CORRUPT, then the lower slot
(R51). -/
def loses (t : SlotTable) (slot : Nat) (r : SlotRec) : Bool :=
  match r with
  | .bad => false
  | .stored i => t.any (fun p => p.1 < slot && (match p.2 with | .stored j => j.seq = i.seq | _ => false))
  | .corrupt i => t.any (fun p => match p.2 with
      | .stored j => j.seq = i.seq
      | .corrupt j => p.1 < slot && j.seq = i.seq
      | .bad => false)

/-- The slot table with duplicate block sequences resolved: the slots that lose become FREE (R51). -/
def dedupe (t : SlotTable) : SlotTable := t.filter (fun p => !loses t p.1 p.2)

end Sys2Proof.Machine
end

