-- ==== Sys2Proof/Machine/Flags.lean ====
section
/-! DEFINITION. The attention flags and their word (R210, R217), a link's part of the state, and the posting of a flag. -/

namespace Sys2Proof.Machine

/-- The attention flags, in the order of the flag word (R217). -/
inductive Notice where
  | resetDone | sessionState | blockStored | journalLow
  | journalSuspended | journalFault | lateCorrection | keyStuck
  | zeroDone | loadDone | groupDiscarded | classChanged
  | sidebarLine | markChanged | lineEdited | feedAlert
  | feedTestDone | feedGate | benchPresence | reporterPresence
deriving DecidableEq, Repr

/-- The flag's bit in the flag word (R217). -/
def Notice.bit : Notice → Nat
  | .resetDone => 0 | .sessionState => 1 | .blockStored => 2 | .journalLow => 3
  | .journalSuspended => 4 | .journalFault => 5 | .lateCorrection => 6 | .keyStuck => 7
  | .zeroDone => 8 | .loadDone => 9 | .groupDiscarded => 10 | .classChanged => 11
  | .sidebarLine => 12 | .markChanged => 13 | .lineEdited => 14 | .feedAlert => 15
  | .feedTestDone => 16 | .feedGate => 17 | .benchPresence => 18 | .reporterPresence => 19

/-- The latch set with one flag more; a flag already in it changes nothing (R210). -/
def latch (n : Notice) (a : BitVec 20) : BitVec 20 := a ||| BitVec.twoPow 20 n.bit

/-- The latch set holds the flag. -/
def latchHolds (n : Notice) (a : BitVec 20) : Bool := a.getLsbD n.bit

/-- The 4-byte flag word: bits 20..31 are 0 (R217). -/
def flagWord (a : BitVec 20) : List Byte := be 4 a.toNat

/-- The other link. -/
def otherLink : Link → Link
  | .reporter => .bench
  | .bench => .reporter

/-- The state of a link (R199). -/
def State.link (s : State) : Link → LinkState
  | .reporter => s.reporter
  | .bench => s.bench

/-- The state with a link's part replaced. -/
def State.setLink (s : State) (l : Link) (k : LinkState) : State :=
  match l with
  | .reporter => { s with reporter := k }
  | .bench => { s with bench := k }

/-- A flag is posted to a link: it joins the link's latch set, whatever the link's presence and exchange state (R210). -/
def post (l : Link) (n : Notice) (s : State) : State :=
  s.setLink l { s.link l with attn := latch n (s.link l).attn }

/-- A flag is posted to both links (R210). -/
def postBoth (n : Notice) (s : State) : State := post .bench n (post .reporter n s)

/-- Byte `i` that the last transfer of a link sent on data out: a byte of the fetch, and 0x00 in every other position, so 0x00 throughout for a
request write (R200, R204, R214; log entry 25). -/
def dataOut (s : State) (l : Link) (i : Nat) : Byte := (s.link l).fetched.getD i 0#8

/-- The ATN output: asserted exactly when the latch set is not empty (R210). -/
def atn (s : State) (l : Link) : Bool := (s.link l).attn ≠ 0

/-- The RDY output: asserted exactly while the link is READY (R199). -/
def rdyOut (s : State) (l : Link) : Bool :=
  match (s.link l).exch with
  | .ready _ => true
  | _ => false

end Sys2Proof.Machine
end

