-- ==== Sys2Proof/Machine/Operands.lean ====
section
/-! DEFINITION. What the part makes of the fields a request carries: clamping and its clamp list (R206), key sets and dictionary keys
(R71, R217), character replacement (R72), feed numbers and feed sets (R159, R174). -/

namespace Sys2Proof.Machine

/-- One numeric field against its range: the value used, and whether it was clamped (R206). -/
def clampField (lo hi v : Nat) : Nat × Bool := (clampTo lo hi v, v < lo || hi < v)

/-- The same for a range with negative values. -/
def clampIntField (lo hi v : Int) : Int × Bool := (clampInt lo hi v, decide (v < lo) || decide (hi < v))

/-- A clamp list: one bit per numeric field in request order (R217; log entry 17). -/
def clampList (bits : List Bool) : List Byte := be 1 (flagBits bits)

/-- Character codes a text may hold: 0x20..0x7E and 0xA0..0xFF (00_scope.md, Text). -/
def textCode (b : Byte) : Bool := (0x20 ≤ b.toNat && b.toNat ≤ 0x7E) || 0xA0 ≤ b.toNat

/-- A text with each character outside the allowed codes replaced by 0x3F (R72, R136, R188). -/
def replaceText (t : List Byte) : List Byte := t.map (fun b => if textCode b then b else 0x3F#8)

/-- The number of characters replaced. -/
def replacedCount (t : List Byte) : Nat := (t.filter (fun b => !textCode b)).length

/-- A set of a request has bit 23 set, which is refused RANGE (R217). -/
def badSet (k : BitVec 24) : Bool := k.getLsbD 23

/-- The key set of a request's 24-bit set. -/
def toKeySet (k : BitVec 24) : KeySet := k.truncate 23

/-- The press set of the correction stroke: the star key alone (R110). -/
def starSet : KeySet := BitVec.twoPow 23 10

/-- A dictionary key is invalid (R71). -/
def keyInvalid (k : List KeySet) : Bool :=
  k.length < 1 || keyStrokes < k.length || k.any (fun p => p = 0 || p = starSet)

/-- The feed a number names (R159). -/
def feedOf (n : Nat) : Option (Fin 4) := if h : n < 4 then some ⟨n, h⟩ else none

/-- A feed set names no feed, or a feed outside 0..3 (R174, R217). -/
def badFeedSet (b : Byte) : Bool := b = 0 || 16 ≤ b.toNat

/-- The feeds, in order. -/
def allFeeds : List (Fin 4) := [0, 1, 2, 3]

/-- The feeds of a set, in order. -/
def feedsOf (b : Byte) : List (Fin 4) := allFeeds.filter (fun f => b.getLsbD f.val)

end Sys2Proof.Machine
end

