-- ==== Sys2Proof/Machine/Ops.lean ====
section
/-! DEFINITION. The operations all blocks share: the clock and the timers, the forming of a response, a link's presence, and the taking of
a request frame with the checks every request passes (R201 to R203). -/

namespace Sys2Proof.Machine

/-! ## Time -/

/-- The session clock runs in LIVE, RECESS and CLOSING (R58). -/
def SessState.clockRuns : SessState → Bool
  | .live | .recess | .closing => true
  | _ => false

/-- A timer that runs has reached its expiry. -/
def Timer.due (t : Timer) (now : Nat) : Bool :=
  match t with
  | none => false
  | some e => e ≤ now

/-- One millisecond passes: the session clock counts it while it runs, holding at its top (R58; log entry 1). -/
def tick (s : State) : State :=
  { s with
    now := s.now + 1
    session := { s.session with
      clock := if s.session.st.clockRuns then succHold max32 s.session.clock else s.session.clock } }

/-- A session is open: LIVE or RECESS. -/
def SessState.isOpen : SessState → Bool
  | .live | .recess => true
  | _ => false

/-! ## Responses -/

/-- A link's response is formed: it goes into the response slot and the link becomes READY (R202). -/
def respond (l : Link) (r : Response) (s : State) : State :=
  s.setLink l { s.link l with exch := .ready r }

/-- The response to the request a link holds EXECUTING is formed (R202). -/
def finish (l : Link) (status : Status) (payload : List Byte) (s : State) : State :=
  match (s.link l).exch with
  | .executing code tag => respond l { code := code, tag := tag, status := status, payload := payload } s
  | _ => s

/-! ## Presence -/

/-- The flag that tells a link's presence to the other link (R212). -/
def presenceNotice : Link → Notice
  | .reporter => .reporterPresence
  | .bench => .benchPresence

/-- A request write ends: during it the part sent 0x00 on data out in every byte position (R200, R214; log entry 25). -/
def writeOver (l : Link) (s : State) : State := s.setLink l { s.link l with fetched := [] }

/-- A valid request frame has been written to a link: 0x00 stood on data out meanwhile (R200), and the frame restarts the presence timer, or
restores presence and tells the other link (R211, R213). During START the timer is stopped and stays so. -/
def touchPresence (l : Link) (s : State) : State :=
  let s0 := writeOver l s
  if s.session.st = .start then s0
  else
    let k := s0.link l
    let s1 := s0.setLink l { k with present := true, timer := some (s.now + k.presenceTime) }
    if k.present then s1 else post (otherLink l) (presenceNotice l) s1

/-! ## Taking a request frame -/

/-- What the block that owns a request makes of it: a response at once, or a request that waits (R202). -/
inductive Reply where
  | done (status : Status) (payload : List Byte) (s : State)
  | wait (s : State)
deriving DecidableEq, Repr

/-- A request refused, or answered with nothing changed and nothing to report. -/
def refuse (status : Status) (s : State) : Reply := .done status [] s

/-- A frame that meets a link EXECUTING or READY: it is discarded, and told of by the discard indication (R203). -/
def discardFrame (l : Link) (s : State) : State := s.setLink l { s.link l with discard := true }

/-- The reply put on the link: the response slot, or the link left EXECUTING. -/
def deliver (l : Link) (code tag : Byte) : Reply → State
  | .done status payload s => respond l { code := code, tag := tag, status := status, payload := payload } s
  | .wait s => s.setLink l { s.link l with exch := .executing code tag }

/-- The checks of R201 in order, and the block's own answer for a frame that passes them. -/
def answer {α : Type} (l : Link) (r : Req) (p : Payload α) (block : α → State → Reply) (s : State) : Reply :=
  if s.session.st = .start ∧ r ≠ .getStatus then refuse .notReady s
  else if r.carriedBy l = false then refuse .notPermitted s
  else
    match p with
    | .badLength => refuse .range s
    | .fields a => block a s

/-- A valid request frame arrives whole at a link: while RSTN is held the transfer is ignored, with 0x00 on data out (R214); the frame counts
for presence; it is discarded unless the link is IDLE (R203); else it is taken and answered (R201, R202). -/
def serve {α : Type} (l : Link) (tag : Byte) (r : Req) (p : Payload α) (block : α → State → Reply) (s : State) : State :=
  if s.pins.rstnHeld then writeOver l s
  else
    let s1 := touchPresence l s
    match (s1.link l).exch with
    | .idle => deliver l r.code tag (answer l r p block s1)
    | _ => discardFrame l s1

end Sys2Proof.Machine
end

