-- ==== Sys2Proof/Machine/JournalOps.lean ====
section
/-! DEFINITION. What the Journal Controller does with an append request: appending, opening and closing a block, suspension, the GAP and
RESTART entries, and FAULTED (R26 to R44, R52), with the report that ends CLOSING (R40, R65). -/

namespace Sys2Proof.Machine

/-! ## The buffers -/

/-- The block of a FILLING buffer. -/
def Buffer.fillingBlock : Buffer → Option Block
  | .filling b => some b
  | _ => none

/-- The block a buffer holds (R26). -/
def Buffer.block : Buffer → Option Block
  | .free => none
  | .filling b => some b
  | .queued b _ => some b
  | .writing b _ => some b

/-- FREE, FILLING, QUEUED, WRITING as numbers (R26, R217). -/
def Buffer.code : Buffer → Nat
  | .free => 0
  | .filling _ => 1
  | .queued _ _ => 2
  | .writing _ _ => 3

/-- The FILLING buffer and its block: at most one buffer is FILLING (R26). -/
def findFilling (q : Quad Buffer) : Option (Fin 4 × Block) :=
  allFeeds.findSome? (fun i => (q.get i).fillingBlock.map (fun b => (i, b)))

/-- The lowest-numbered FREE buffer (R30). -/
def lowestFree (q : Quad Buffer) : Option (Fin 4) := allFeeds.find? (fun i => q.get i = .free)

/-- Every buffer is FREE or FILLING (R40). -/
def buffersSettled (q : Quad Buffer) : Bool := q.toList.all (fun b => b.code ≤ 1)

/-- The journal is FAULTED. -/
def JCond.isFaulted : JCond → Bool
  | .faulted _ => true
  | _ => false

/-! ## The report that ends CLOSING -/

/-- The session reaches STANDBY: the clock stops with the state, and SESSION_STATE is posted to both links (R65). -/
def toStandby (s : State) : State :=
  postBoth .sessionState { s with session := { s.session with st := .standby } }

/-- While the session is CLOSING, the report that every buffer is FREE or FILLING, or that the journal is FAULTED, moves it to STANDBY
(R40, R65). -/
def closingReport (s : State) : State :=
  if s.session.st = .closing ∧ (s.journal.cond.isFaulted = true ∨ buffersSettled s.journal.buffers = true)
  then toStandby s else s

/-! ## Missed entries -/

/-- An entry that finds the journal SUSPENDED or FAULTED is counted (R42). -/
def countMissed (e : Entry) (s : State) : State :=
  if e.kind = .stroke then
    { s with journal := { s.journal with
        missedStrokes := succHold max24 s.journal.missedStrokes
        firstMissed := some (s.journal.firstMissed.getD e.seq) } }
  else
    { s with journal := { s.journal with missedOther := succHold max24 s.journal.missedOther } }

/-- The missed counts at zero (R38, R41, R43). -/
def clearMissed (s : State) : State :=
  { s with journal := { s.journal with missedStrokes := 0, missedOther := 0, firstMissed := none } }

/-! ## FAULTED -/

/-- A header clear that waits for the port is abandoned when the journal becomes FAULTED, and its request answered JOURNAL_FAULT
(R38). -/
def abandonClear (s : State) : State :=
  match s.journal.waiting with
  | some (.clear _ _) =>
    finish .reporter .journalFault [] { s with journal := { s.journal with waiting := none } }
  | _ => s

/-- The condition, the cause and the cancelled interval timer of a FAULTED journal (R38). -/
def setFaulted (c : FaultCause) (s : State) : State :=
  { s with journal := { s.journal with cond := .faulted c, intervalTimer := none } }

/-- What entering FAULTED does to the missed counts: from NORMAL they start at zero and JOURNAL_SUSPENDED is posted; from SUSPENDED
they are kept (R38). -/
def faultCounts (s : State) : State :=
  if s.journal.cond = .normal then postBoth .journalSuspended (clearMissed s) else s

/-- The journal becomes FAULTED (R38); a journal that is FAULTED already stays as it is, with its cause (log entry 32). -/
def enterFault (c : FaultCause) (s : State) : State :=
  if s.journal.cond.isFaulted then s
  else closingReport (post .reporter .journalFault (abandonClear (setFaulted c (faultCounts s))))

/-! ## Closing a block -/

/-- A block completed at its close: close time, close reason, and the CRC over the whole of it (R33). -/
def Block.closed (b : Block) (r : CloseReason) (clock : Nat) : Block :=
  let b1 := { b with closeTime := clock, reason := some r }
  { b1 with crc := b1.computeCrc }

/-- The FILLING block closes: its buffer becomes QUEUED at the tail of the write queue and the interval timer is cancelled (R31, R33).
With no FILLING block nothing changes (R32). -/
def closeFilling (r : CloseReason) (s : State) : State :=
  match findFilling s.journal.buffers with
  | none => s
  | some (i, b) =>
    { s with journal := { s.journal with
        buffers := s.journal.buffers.set i (.queued (b.closed r s.session.clock) none)
        queue := s.journal.queue ++ [i]
        intervalTimer := none } }

/-! ## Appending an entry -/

/-- A block with one entry more, its flags and its stroke range (R29, R33). -/
def Block.add (b : Block) (e : Entry) : Block :=
  { b with
    entries := b.entries ++ [e]
    incomplete := b.incomplete || (b.entries = [] && e.kind = .gap)
    restart := b.restart || (b.entries = [] && e.kind = .restart)
    firstStroke := if e.kind = .stroke then some (b.firstStroke.getD e.seq) else b.firstStroke
    lastStroke := if e.kind = .stroke then some e.seq else b.lastStroke }

/-- An entry is appended to the FILLING block and takes the entry sequence (R29): the 64th closes the block FULL (R31), and the last
sequence there is makes the journal FAULTED. -/
def putEntry (e : Entry) (s : State) : State :=
  match findFilling s.journal.buffers with
  | none => s
  | some (i, b) =>
    let b1 := b.add e
    let s1 := { s with journal := { s.journal with
      buffers := s.journal.buffers.set i (.filling b1)
      nextEntry := succHold max32 s.journal.nextEntry } }
    let s2 := if blockEntries ≤ b1.entries.length then closeFilling .full s1 else s1
    if s.journal.nextEntry < max32 then s2 else enterFault .sequenceExhausted s2

/-- A block is opened in buffer `i`, which becomes FILLING, with the next block sequence (R30). -/
def openBlock (i : Fin 4) (s : State) : State :=
  { s with journal := { s.journal with
      buffers := s.journal.buffers.set i (.filling
        { seq := s.journal.nextBlock, session := s.session.number, firstEntry := s.journal.nextEntry
          incomplete := false, restart := false, reason := none
          openTime := s.session.clock, closeTime := 0, firstStroke := none, lastStroke := none
          entries := [], crc := 0#16 })
      nextBlock := succHold max32 s.journal.nextBlock
      blockSpent := decide (max32 ≤ s.journal.nextBlock)
      intervalTimer := some (s.now + s.journal.interval) } }

/-- The RESTART entry (R52, R219). -/
def restartEntry (s : State) : Entry :=
  { kind := .restart, attrs := 0#8, seq := s.journal.lastStored, time := s.session.clock
    fieldA := s.session.cause.entryCode, fieldB := s.journal.corruptFound }

/-- The RESTART entry is appended first to the first block opened after recovery (R52). -/
def putRestart (s : State) : State :=
  if s.journal.restartPending then
    putEntry (restartEntry s) { s with journal := { s.journal with restartPending := false } }
  else s

/-- The journal becomes SUSPENDED and counts the entry that found no room (R41). -/
def suspend (e : Entry) (s : State) : State :=
  postBoth .journalSuspended
    (countMissed e (let s1 := clearMissed s; { s1 with journal := { s1.journal with cond := .suspended } }))

/-- An entry for the block just opened: appended, unless opening it made the journal FAULTED. -/
def putOrCount (e : Entry) (s : State) : State :=
  if s.journal.cond = .normal then putEntry e s else countMissed e s

/-- The append request of a block is taken (R28 to R30, R41, R42). -/
def append (e : Entry) (s : State) : State :=
  match s.journal.cond with
  | .suspended => countMissed e s
  | .faulted _ => countMissed e s
  | .normal =>
    match findFilling s.journal.buffers with
    | some _ => putEntry e s
    | none =>
      match lowestFree s.journal.buffers with
      | none => suspend e s
      | some i =>
        if s.journal.blockSpent then countMissed e (enterFault .sequenceExhausted s)
        else putOrCount e (putRestart (openBlock i s))

/-! ## The end of a suspension -/

/-- The GAP entry (R43, R219). -/
def gapEntry (s : State) : Entry :=
  { kind := .gap, attrs := 0#8, seq := s.journal.firstMissed.getD 0, time := s.session.clock
    fieldA := s.journal.missedStrokes, fieldB := s.journal.missedOther }

/-- A freed buffer ends the suspension: a block is opened in it that begins with the GAP entry, the counts are cleared and the
condition is NORMAL (R43). Where no block sequence is left, the journal becomes FAULTED instead (R30). A GAP entry that takes the last entry
sequence faults the journal after the counts are cleared and the condition is NORMAL (R29, R38; log entry 54). -/
def endSuspension (i : Fin 4) (s : State) : State :=
  if s.journal.blockSpent then enterFault .sequenceExhausted s
  else
    let s1 := clearMissed (openBlock i s)
    putEntry (gapEntry s) (postBoth .journalSuspended { s1 with journal := { s1.journal with cond := .normal } })

/-! ## The number of FREE slots -/

/-- The number that R37 and R39 count toward JOURNAL_LOW stands at `n`: the FREE slots of the slot table, less one for each header clear that
has failed since recovery (log entry 43). -/
def lowNumberIs (j : Journal) (n : Nat) : Bool := freeSlots j.slots = n + j.failedClears

/-- JOURNAL_LOW is posted when the number of FREE slots has fallen from 65 to 64 (R37, R39). -/
def lowCheck (before : Journal) (s : State) : State :=
  if lowNumberIs before (lowSlots + 1) ∧ lowNumberIs s.journal lowSlots then post .reporter .journalLow s else s

/-- A write is ready: the queue is not empty, a FREE slot exists, and the journal is not FAULTED (R34). -/
def writeReady (s : State) : Bool :=
  !s.journal.queue.isEmpty && (nextFree s.journal.slots s.journal.lastSlot).isSome && !s.journal.cond.isFaulted

/-- The condition as Get Status and Journal Summary report it: NORMAL 0, SUSPENDED 1, FAULTED 2, RECOVERING 3 (R27, R217). -/
def condCode (s : State) : Nat :=
  if s.session.st = .start then 3
  else
    match s.journal.cond with
    | .normal => 0
    | .suspended => 1
    | .faulted _ => 2

end Sys2Proof.Machine
end

