-- ==== Sys2Proof/Machine/Dictionary.lean ====
section
/-! DEFINITION. The Dictionary Store (chapter 4): lookups (R88, R89), the main tier's load and build (R74 to R78), the job tier and the
staged group (R80 to R87), Look Up (R90), and their commands. -/

namespace Sys2Proof.Machine

/-! ## Tiers -/

/-- The entry of a tier for a key. -/
def findKey (es : List DictEntry) (key : List KeySet) : Option DictEntry := es.find? (fun e => e.key = key)

/-- A tier holds a key. -/
def holdsKey (es : List DictEntry) (key : List KeySet) : Bool := (findKey es key).isSome

/-- A tier with an entry put in: the entry of the same key replaced, or the entry added (R76, R85). -/
def upsert (e : DictEntry) (es : List DictEntry) : List DictEntry :=
  if holdsKey es e.key then es.map (fun x => if x.key = e.key then e else x) else es ++ [e]

/-- A tier without a key. -/
def removeKey (key : List KeySet) (es : List DictEntry) : List DictEntry := es.filter (fun e => e.key ≠ key)

/-- Key `k` begins key `k'` (R70). -/
def begins (k k' : List KeySet) : Bool := k.length < k'.length && k'.take k.length = k

/-! ## Lookup -/

/-- Where a key resolves. -/
inductive Resolution where
  | job (e : DictEntry)
  | main (e : DictEntry)
  | none
deriving DecidableEq, Repr

/-- The main tier's entry for a key; found in a READY tier alone (R74). -/
def mainEntry (d : Dict) (key : List KeySet) : Option DictEntry :=
  if d.mainState = .ready then findKey d.main key else .none

/-- How a key resolves (R88). -/
def resolve (d : Dict) (key : List KeySet) : Resolution :=
  match findKey d.job key with
  | some e => if e.fmt.suppress then .none else .job e
  | .none =>
    match mainEntry d key with
    | some e => .main e
    | .none => .none

/-- The entry the Translator is answered, without SUPPRESS (R88). -/
def Resolution.entry : Resolution → Option DictEntry
  | .job e => some { e with fmt := { e.fmt with suppress := false } }
  | .main e => some { e with fmt := { e.fmt with suppress := false } }
  | .none => .none

/-- A key is extendable (R89). -/
def extendable (d : Dict) (key : List KeySet) : Bool :=
  (d.mainState = .ready && d.main.any (fun e => begins key e.key))
    || d.job.any (fun e => !e.fmt.suppress && begins key e.key)

/-! ## The main tier -/

/-- The state with the Dictionary Store replaced. -/
def setDict (d : Dict) (s : State) : State := { s with dict := d }

/-- Begin Main Load at the Dictionary Store (R75). -/
def beginLoad (_ : Unit) (s : State) : Reply :=
  if s.session.st ≠ .standby then refuse .wrongState s
  else if s.dict.mainState = .building then refuse .busy s
  else .done .ok [] (setDict { s.dict with mainState := .loading, main := [], poolUse := 0 } s)

/-- BEGIN_MAIN_LOAD (R75). -/
def execBeginMainLoad (l : Link) (tag : Byte) (p : Payload Unit) (s : State) : Host.Outcome State Fault Refusal :=
  .next (serve l tag .beginMainLoad p beginLoad s)

/-- The dictionary entry of a request's entry, its characters replaced (R72). -/
def dictEntryOf (r : RawEntry) : DictEntry :=
  { key := r.key.map toKeySet, text := replaceText r.text, fmt := Fmt.ofByte r.flags }

/-- What became of one entry of a Load Entries: status, whether it replaced an entry, characters replaced (R76). -/
structure LoadResult where
  status   : Status
  replaced : Bool
  chars    : Nat
deriving DecidableEq, Repr

/-- One entry of a Load Entries is taken: the statuses of R76 in their order. -/
def loadEntry (d : Dict) (r : RawEntry) : Dict × LoadResult :=
  let e := dictEntryOf r
  if keyInvalid e.key then (d, { status := .keyInvalid, replaced := false, chars := 0 })
  else if textLimit < e.text.length ∨ e.fmt.suppress = true then (d, { status := .range, replaced := false, chars := 0 })
  else if holdsKey d.main e.key = false ∧ mainCapacity ≤ d.main.length then
    (d, { status := .tierFull, replaced := false, chars := replacedCount r.text })
  else if poolCapacity < d.poolUse + e.text.length then
    (d, { status := .poolFull, replaced := false, chars := replacedCount r.text })
  else
    ({ d with main := upsert e d.main, poolUse := d.poolUse + e.text.length },
     { status := .ok, replaced := holdsKey d.main e.key, chars := replacedCount r.text })

/-- The entries of a Load Entries are taken one by one in order (R76). -/
def loadAll : Dict → List RawEntry → Dict × List LoadResult
  | d, [] => (d, [])
  | d, r :: rs =>
    let one := loadEntry d r
    let rest := loadAll one.1 rs
    (rest.1, one.2 :: rest.2)

/-- One entry's part of the Load Entries response. -/
def LoadResult.field (r : LoadResult) : List Byte := be 1 r.status.code ++ [flagByte r.replaced] ++ be 1 r.chars

/-- The main tier's entry count and pool use, as responses carry them. -/
def mainCounts (d : Dict) : List Byte := be 4 d.main.length ++ be 4 d.poolUse

/-- Load Entries at the Dictionary Store (R76). -/
def loadEntries (rs : List RawEntry) (s : State) : Reply :=
  if s.session.st ≠ .standby then refuse .wrongState s
  else if s.dict.mainState = .building then refuse .busy s
  else if s.dict.mainState ≠ .loading then refuse .wrongState s
  else if rs = [] ∨ loadCapacity < rs.length ∨ (rs.any (fun r => r.key.any badSet)) = true then refuse .range s
  else
    let r := loadAll s.dict rs
    .done .ok (listField LoadResult.field r.2 ++ mainCounts r.1) (setDict r.1 s)

/-- LOAD_ENTRIES (R76). -/
def execLoadEntries (l : Link) (tag : Byte) (p : Payload (List RawEntry)) (s : State) : Host.Outcome State Fault Refusal :=
  .next (serve l tag .loadEntries p loadEntries s)

/-- End Main Load at the Dictionary Store (R77). -/
def endLoad (_ : Unit) (s : State) : Reply :=
  if s.session.st ≠ .standby then refuse .wrongState s
  else if s.dict.mainState = .building then refuse .busy s
  else if s.dict.mainState ≠ .loading then refuse .wrongState s
  else .done .ok (mainCounts s.dict) (setDict { s.dict with mainState := .building } s)

/-- END_MAIN_LOAD (R77). -/
def execEndMainLoad (l : Link) (tag : Byte) (p : Payload Unit) (s : State) : Host.Outcome State Fault Refusal :=
  .next (serve l tag .endMainLoad p endLoad s)

/-- The build completes: the main tier is READY and LOAD_DONE is posted (R78); it does not occur unless a build runs. -/
def buildDone (s : State) : State :=
  if s.dict.mainState = .building then post .reporter .loadDone (setDict { s.dict with mainState := .ready } s) else s

/-- BUILD_COMPLETE (R78). -/
def execBuildComplete (s : State) : Host.Outcome State Fault Refusal := .next (buildDone s)

/-! ## The job tier and the staged group -/

/-- Clear Job Tier at the Dictionary Store: an open group refuses it BUSY before the session state is asked, in the order of R80's text (R202;
log entry 19). -/
def clearJob (_ : Unit) (s : State) : Reply :=
  if s.dict.group.isSome then refuse .busy s
  else if s.session.st ≠ .standby then refuse .wrongState s
  else .done .ok (be 2 s.dict.job.length) (setDict { s.dict with job := [] } s)

/-- CLEAR_JOB_TIER (R80). -/
def execClearJobTier (l : Link) (tag : Byte) (p : Payload Unit) (s : State) : Host.Outcome State Fault Refusal :=
  .next (serve l tag .clearJobTier p clearJob s)

/-- Open Group at the Dictionary Store (R81). -/
def openStaged (_ : Unit) (s : State) : Reply :=
  if s.session.st = .closing then refuse .wrongState s
  else if s.dict.group.isSome then refuse .already s
  else .done .ok [] (setDict { s.dict with group := some [] } s)

/-- OPEN_GROUP (R81). -/
def execOpenGroup (l : Link) (tag : Byte) (p : Payload Unit) (s : State) : Host.Outcome State Fault Refusal :=
  .next (serve l tag .openGroup p openStaged s)

/-- The key of a staged change. -/
def Staged.key : Staged → List KeySet
  | .define e => e.key
  | .remove k => k

/-- A group has a change for a key. -/
def stagedFor (g : List Staged) (key : List KeySet) : Bool := g.any (fun c => c.key = key)

/-- A change staged: it takes the place of the change for its key, or joins the end of the list (R82, R83). -/
def stage (g : List Staged) (c : Staged) : List Staged :=
  if stagedFor g c.key then g.map (fun x => if x.key = c.key then c else x) else g ++ [c]

/-- A change offered to the open group: TABLE_FULL for a new key when the group holds 32 (R82, R83); `more` is what the response adds. -/
def stageChange (g : List Staged) (c : Staged) (more : List Byte) (s : State) : Reply :=
  if stagedFor g c.key = false ∧ groupCapacity ≤ g.length then refuse .tableFull s
  else
    .done .ok (be 1 (stage g c).length ++ [flagByte (stagedFor g c.key)] ++ more)
      (setDict { s.dict with group := some (stage g c) } s)

/-- Stage Define at the Dictionary Store (R82). -/
def stageDefine (r : RawEntry) (s : State) : Reply :=
  match s.dict.group with
  | none => refuse .wrongState s
  | some g =>
    if r.key.any badSet then refuse .range s
    else if keyInvalid (dictEntryOf r).key then refuse .keyInvalid s
    else if textLimit < r.text.length then refuse .range s
    else stageChange g (.define (dictEntryOf r)) (be 1 (replacedCount r.text)) s

/-- STAGE_DEFINE (R82). -/
def execStageDefine (l : Link) (tag : Byte) (p : Payload RawEntry) (s : State) : Host.Outcome State Fault Refusal :=
  .next (serve l tag .stageDefine p stageDefine s)

/-- Stage Remove at the Dictionary Store (R83). -/
def stageRemove (k : List (BitVec 24)) (s : State) : Reply :=
  match s.dict.group with
  | none => refuse .wrongState s
  | some g =>
    if k.any badSet then refuse .range s
    else if keyInvalid (k.map toKeySet) then refuse .keyInvalid s
    else stageChange g (.remove (k.map toKeySet)) [] s

/-- STAGE_REMOVE (R83). -/
def execStageRemove (l : Link) (tag : Byte) (p : Payload (List (BitVec 24))) (s : State) : Host.Outcome State Fault Refusal :=
  .next (serve l tag .stageRemove p stageRemove s)

/-- The number of DEFINEs of a group whose key the job tier does not hold. -/
def addedCount (job : List DictEntry) (g : List Staged) : Nat :=
  (g.filter (fun c => match c with | .define e => !holdsKey job e.key | .remove _ => false)).length

/-- The number of DEFINEs of a group whose key the job tier holds. -/
def replacedKeys (job : List DictEntry) (g : List Staged) : Nat :=
  (g.filter (fun c => match c with | .define e => holdsKey job e.key | .remove _ => false)).length

/-- The number of REMOVEs of a group whose key the job tier holds. -/
def removedCount (job : List DictEntry) (g : List Staged) : Nat :=
  (g.filter (fun c => match c with | .define _ => false | .remove k => holdsKey job k)).length

/-- The number of REMOVEs of a group whose key the job tier does not hold. -/
def notFoundCount (job : List DictEntry) (g : List Staged) : Nat :=
  (g.filter (fun c => match c with | .define _ => false | .remove k => !holdsKey job k)).length

/-- The job tier's entry count as a group would leave it (R84). -/
def countAfter (job : List DictEntry) (g : List Staged) : Nat := job.length + addedCount job g - removedCount job g

/-- One change applied to the job tier. -/
def Staged.apply (job : List DictEntry) : Staged → List DictEntry
  | .define e => upsert e job
  | .remove k => removeKey k job

/-- The group number after a commit (R85). -/
def nextGroup (n : Nat) : Nat := if n < max16 then n + 1 else 1

/-- The COMMIT entry (R85, R219). -/
def commitEntry (n : Nat) (job : List DictEntry) (g : List Staged) (s : State) : Entry :=
  { kind := .commit, attrs := 0#8, seq := n, time := s.session.clock
    fieldA := addedCount job g + replacedKeys job g, fieldB := removedCount job g }

/-- The Translator is told that the tiers have changed (R85); it takes the notice later (R114; log entry 22). -/
def notifyTiers (s : State) : State := { s with trans := { s.trans with notices := s.trans.notices + 1 } }

/-- A group applied whole (R85). -/
def applyGroup (g : List Staged) (s : State) : State :=
  let n := nextGroup s.dict.groupNumber
  notifyTiers (append (commitEntry n s.dict.job g s)
    (setDict { s.dict with job := g.foldl Staged.apply s.dict.job, groupNumber := n, group := none } s))

/-- Commit Group at the Dictionary Store (R84, R85). -/
def commitGroup (_ : Unit) (s : State) : Reply :=
  match s.dict.group with
  | none => refuse .wrongState s
  | some g =>
    let job := s.dict.job
    if jobCapacity < countAfter job g then .done .tierFull (be 2 (countAfter job g)) s
    else
      let s1 := applyGroup g s
      .done .ok (be 2 s1.dict.groupNumber ++ be 1 (addedCount job g) ++ be 1 (replacedKeys job g) ++ be 1 (removedCount job g)
        ++ be 1 (notFoundCount job g) ++ be 2 s1.dict.job.length) s1

/-- COMMIT_GROUP (R85). -/
def execCommitGroup (l : Link) (tag : Byte) (p : Payload Unit) (s : State) : Host.Outcome State Fault Refusal :=
  .next (serve l tag .commitGroup p commitGroup s)

/-- Abandon Group at the Dictionary Store (R86). -/
def abandonGroup (_ : Unit) (s : State) : Reply :=
  match s.dict.group with
  | none => refuse .already s
  | some g => .done .ok (be 1 g.length) (setDict { s.dict with group := none } s)

/-- ABANDON_GROUP (R86). -/
def execAbandonGroup (l : Link) (tag : Byte) (p : Payload Unit) (s : State) : Host.Outcome State Fault Refusal :=
  .next (serve l tag .abandonGroup p abandonGroup s)

/-- An open group is discarded and GROUP_DISCARDED posted, at Close Session and on loss of reporter presence (R87). -/
def discardGroup (s : State) : State :=
  match s.dict.group with
  | none => s
  | some _ => post .reporter .groupDiscarded (setDict { s.dict with group := none } s)

/-! ## Look Up -/

/-- A text and its flags. -/
def entryField (e : DictEntry) : List Byte := textField e.text ++ [e.fmt.byte]

/-- The main tier's item of Look Up (R90), told by one byte: UNAVAILABLE 0, absent 1, held 2, with the entry's text and flags after a 2 alone.
Neither R90 nor R217 numbers the three (log entry 48). -/
def mainField (d : Dict) (key : List KeySet) : List Byte :=
  if d.mainState = .ready then
    match findKey d.main key with
    | none => [1#8]
    | some e => 2#8 :: entryField e
  else [0#8]

/-- The resolution item of Look Up: JOB 0, MAIN 1, NONE 2 (R90, R217). The text and flags follow JOB and MAIN with no presence byte of their
own, and are left out for NONE (log entry 48). -/
def resolutionField (d : Dict) (key : List KeySet) : List Byte :=
  match resolve d key with
  | .job e => 0#8 :: entryField { e with fmt := { e.fmt with suppress := false } }
  | .main e => 1#8 :: entryField { e with fmt := { e.fmt with suppress := false } }
  | .none => [2#8]

/-- A staged change: DEFINE 0 with its entry, REMOVE 1. -/
def stagedField : Staged → List Byte
  | .define e => 0#8 :: entryField e
  | .remove _ => [1#8]

/-- The Look Up response (R90); a job entry's text and flags, and a staged change, stand under one presence byte each (log entry 57). -/
def lookUpPayload (d : Dict) (key : List KeySet) : List Byte :=
  optField entryField (findKey d.job key) ++ mainField d key ++ resolutionField d key ++ [flagByte (extendable d key)]
    ++ optField stagedField ((d.group.getD []).find? (fun c => c.key = key))

/-- Look Up at the Dictionary Store (R90). -/
def lookUp (k : List (BitVec 24)) (s : State) : Reply :=
  if k.any badSet then refuse .range s
  else if keyInvalid (k.map toKeySet) then refuse .keyInvalid s
  else .done .ok (lookUpPayload s.dict (k.map toKeySet)) s

/-- LOOK_UP (R90). -/
def execLookUp (l : Link) (tag : Byte) (p : Payload (List (BitVec 24))) (s : State) : Host.Outcome State Fault Refusal :=
  .next (serve l tag .lookUp p lookUp s)

end Sys2Proof.Machine
end

