-- ==== Sys2Proof/Machine/FeedOps.lean ====
section
/-! DEFINITION. What a feed does by itself (chapter 8): visibility (R156), its frame choice (R163 to R165, R176, R177), the start of a frame
(R166), the low water (R167), the edit queue (R170), a reclaimed line (R171), becoming OFF (R161), its health code (R180 to R182), and the
removal of a WITHDRAWN record that no feed owes (R134). -/

namespace Sys2Proof.Machine

/-! ## Contexts and records -/

/-- A feed's context. -/
def feed (s : State) (f : Fin 4) : Feed := s.feeds.ctx.get f

/-- The state with a feed's context replaced. -/
def setFeedCtx (f : Fin 4) (c : Feed) (s : State) : State :=
  { s with feeds := { s.feeds with ctx := s.feeds.ctx.set f c } }

/-- The feed is enabled: LIVE, HELD or STALLED (R158). -/
def FeedState.enabled : FeedState → Bool
  | .live | .held | .stalled => true
  | _ => false

/-- A hold source of the feed is active: the bench hold, or the gate for F3 (R157). -/
def holdActive (s : State) (f : Fin 4) : Bool := (feed s f).benchHold || (f = 3 && s.feeds.gate)

/-- The state with the line records replaced. -/
def setRecords (rs : List Line) (s : State) : State := { s with lines := { s.lines with records := rs } }

/-- The record of a serial. -/
def findLine (rs : List Line) (serial : Nat) : Option Line := rs.find? (fun l => l.serial = serial)

/-- The records with that of a serial taken through `g`. -/
def updateLine (serial : Nat) (g : Line → Line) (rs : List Line) : List Line :=
  rs.map (fun l => if l.serial = serial then g l else l)

/-- The oldest held serial: the lowest held, or the serial counter plus 1 while the store is empty (R120). -/
def oldestHeld (ls : LineStore) : Nat :=
  match ls.records with
  | [] => ls.counter + 1
  | l :: _ => l.serial

/-! ## Health (R180 to R182) -/

/-- The health code a feed's context gives: the first of the table whose condition holds (R180). -/
def healthOf (c : Feed) : Health :=
  match c.state with
  | .stalled => if c.seen then .stalled else .receiverAbsent
  | .live => if c.outOfStep then .outOfStep else if c.withheld then .withholding else .healthy
  | .held => if c.outOfStep then .outOfStep else .held
  | .test => .testing
  | .off => .notEnabled
  | .stopping => .notEnabled

/-- The more urgent of two codes: the lower value (R182). -/
def urgent (a b : Health) : Health := if b.code < a.code then b else a

/-- One link's latched code of a feed takes a new current code (R182). -/
def latchHealth (l : Link) (f : Fin 4) (h : Health) (s : State) : State :=
  let k := s.link l
  s.setLink l { k with latched := k.latched.set f (urgent (k.latched.get f) h) }

/-- A feed's code is formed afresh; a change latches it on both links, and posts FEED_ALERT when the new code is RECEIVER_ABSENT, STALLED
or OUT_OF_STEP (R180, R181, R182). -/
def refreshHealth (f : Fin 4) (s : State) : State :=
  let c := feed s f
  let h := healthOf c
  if h = c.health then s
  else
    let s1 := latchHealth .bench f h (latchHealth .reporter f h (setFeedCtx f { c with health := h } s))
    if h.code ≤ 2 then postBoth .feedAlert s1 else s1

/-! ## Visibility (R156) -/

/-- A class is visible to an audience. -/
def visible : Audience → Cls → Bool
  | .bench, _ => true
  | .counsel, c => c ≠ .chambers
  | .pub, c => c = .opn

/-! ## Removal of records -/

/-- No feed owes the withdrawal of this WITHDRAWN record: for each feed its sent revision is 0 or its withdraw-sent flag is set (R134). -/
def withdrawalDone (l : Line) : Bool :=
  l.state = .withdrawn && allFeeds.all (fun f => l.sent.get f = 0 || l.withdrawSent.get f)

/-- A low water below the oldest held serial becomes that serial (R167). -/
def liftLowWaters (s : State) : State :=
  { s with feeds := { s.feeds with
      ctx := s.feeds.ctx.map (fun c => { c with lowWater := Nat.max c.lowWater (oldestHeld s.lines) }) } }

/-- The WITHDRAWN records that no feed owes leave the Line Store (R134, R167). -/
def removeDone (s : State) : State :=
  liftLowWaters (setRecords (s.lines.records.filter (fun l => !withdrawalDone l)) s)

/-! ## The frame choice -/

/-- A frame that a choice yields. `queued` tells an UPDATE taken from the edit queue. -/
inductive Due where
  | update (l : Line) (queued : Bool)
  | line (l : Line)
  | withdraw (l : Line)
  | withheld (l : Line)
  | idle
  | test
deriving DecidableEq, Repr

/-- What the scan finds at one record: a frame due, a line that continues the announced run, or nothing (R165). -/
inductive Look where
  | due (d : Due)
  | cover
  | pass
deriving DecidableEq, Repr

/-- The tests of R165 on one record; `prev` is the nearest held record below it that is not WITHDRAWN. -/
def lookAt (f : Fin 4) (a : Audience) (announced : Nat) (prev : Option Line) (l : Line) : Look :=
  if l.state = .withdrawn then
    if l.sent.get f ≠ 0 ∧ l.withdrawSent.get f = false then .due (.withdraw l) else .pass
  else if visible a l.cls then
    if l.revision = l.sent.get f then .pass
    else if l.sent.get f = 0 then .due (.line l) else .due (.update l false)
  else if l.serial ≤ announced then .pass
  else
    match prev with
    | some p => if visible a p.cls = false ∧ p.serial ≤ announced then .cover else .due (.withheld l)
    | none => .due (.withheld l)

/-- The scan from the low water: the announced-through serial after it, and the first frame found due (R164, R165). -/
def scan (f : Fin 4) (a : Audience) (low : Nat) : List Line → Option Line → Nat → Nat × Option Due
  | [], _, ann => (ann, none)
  | l :: ls, prev, ann =>
    let below := if l.state = .withdrawn then prev else some l
    if l.serial < low then scan f a low ls below ann
    else
      match lookAt f a ann prev l with
      | .due d => (ann, some d)
      | .cover => scan f a low ls below l.serial
      | .pass => scan f a low ls below ann

/-- The edit queue served: serials of no record or of an invisible line are removed; the oldest serial left names the line to update
(R164). -/
def serveEdits (a : Audience) (rs : List Line) : List Nat → List Nat × Option Line
  | [] => ([], none)
  | n :: ns =>
    match findLine rs n with
    | some l => if visible a l.cls then (n :: ns, some l) else serveEdits a rs ns
    | none => serveEdits a rs ns

/-- A LIVE feed's choice: the edit queue and the announced-through serial after it, and the frame it yields (R164). -/
def liveChoice (s : State) (f : Fin 4) : List Nat × Nat × Option Due :=
  let c := feed s f
  let q := serveEdits c.audience s.lines.records c.edits
  match q.2 with
  | some l => (q.1, c.announced, some (.update l true))
  | none =>
    let r := scan f c.audience c.lowWater s.lines.records none c.announced
    (q.1, r.1, match r.2 with
      | some d => some d
      | none => if c.idleDue then some .idle else none)

/-! ## The start of a frame (R162, R166) -/

/-- The copy of a line that a LINE or UPDATE frame carries. -/
def textFrame (update : Bool) (l : Line) : FeedFrame := .text update l.serial l.page l.line l.cls l.revision l.text

/-- A feed's sent revision written in a line record (R166). -/
def writeSent (f : Fin 4) (l : Line) (s : State) : State :=
  setRecords (updateLine l.serial (fun x => { x with sent := x.sent.set f l.revision }) s.lines.records) s

/-- A feed's withdraw-sent flag written in a line record, with the check for its removal (R134, R166). -/
def writeWithdrawSent (f : Fin 4) (l : Line) (s : State) : State :=
  removeDone (setRecords (updateLine l.serial (fun x => { x with withdrawSent := x.withdrawSent.set f true }) s.lines.records) s)

/-- The frame in flight set. -/
def setFlight (f : Fin 4) (fr : FeedFrame) (s : State) : State := setFeedCtx f { feed s f with flight := some fr } s

/-- A frame starts: its content is copied, and what R166 lays down is recorded. -/
def startFrame (f : Fin 4) (d : Due) (s : State) : State :=
  let c := feed s f
  match d with
  | .update l queued =>
    writeSent f l (setFeedCtx f { c with
      edits := if queued then c.edits.drop 1 else c.edits
      flight := some (textFrame true l) } s)
  | .line l =>
    refreshHealth f (writeSent f l (setFeedCtx f { c with
      withheld := if c.announced < l.serial then false else c.withheld
      flight := some (textFrame false l) } s))
  | .withdraw l => writeWithdrawSent f l (setFlight f (.withdraw l.serial l.page l.line) s)
  | .withheld l =>
    refreshHealth f (setFeedCtx f { c with
      announced := l.serial
      withheld := true
      flight := some (.withheld l.serial l.page l.line l.cls) } s)
  | .idle => setFlight f (.idle (c.state = .held) c.health s.session.number s.lines.counter) s
  | .test =>
    match c.test with
    | none => s
    | some t =>
      let r := testBytes 64 t.seq
      setFeedCtx f { c with
        test := some { t with sent := t.sent + 1, seq := r.2 }
        flight := some (.test r.1) } s

/-- A frame is due with FnRDY deasserted: the stall timer starts, unless it runs (R172). -/
def startStall (f : Fin 4) (s : State) : State :=
  let c := feed s f
  setFeedCtx f { c with stallTimer := some (c.stallTimer.getD (s.now + c.stallTime)) } s

/-- A choice has yielded a frame: it starts while FnRDY is asserted, and else the stall timer runs (R162, R163, R172). -/
def actOn (f : Fin 4) (d : Due) (s : State) : State :=
  if s.pins.rdy.get f then startFrame f d s else startStall f s

/-- What FnTX carries: the frame in flight, bit by bit, and with none in flight the idle level, as after a reset and in OFF (R161, R185,
R220). -/
def fnTx (s : State) (f : Fin 4) : List TxBit :=
  match (feed s f).flight with
  | some fr => fr.bits
  | none => [.idle]

/-! ## The low water (R167) -/

/-- The feed needs no frame for this record now and can need none later (R167). -/
def passable (f : Fin 4) (c : Feed) (l : Line) : Bool :=
  (l.state = .settled && visible c.audience l.cls && l.revision = l.sent.get f)
    || (l.state = .withdrawn && (l.sent.get f = 0 || l.withdrawSent.get f))
    || (!visible c.audience l.cls && l.serial ≤ c.announced)

/-- The low water raised past the records from it on that are passed (R167). -/
def raisedLow (f : Fin 4) (c : Feed) (ls : LineStore) : Nat :=
  match ls.records.find? (fun l => c.lowWater ≤ l.serial && !passable f c l) with
  | some l => l.serial
  | none => Nat.max c.lowWater (ls.counter + 1)

/-- The low water after a frame choice (R164, R167). -/
def raiseLow (f : Fin 4) (s : State) : State :=
  let c := feed s f
  setFeedCtx f { c with lowWater := raisedLow f c s.lines } s

/-! ## The choice taken -/

/-- A LIVE feed's choice, taken with what it yields (R163, R164). -/
def chooseLive (f : Fin 4) (s : State) : State :=
  let r := liveChoice s f
  let s1 := setFeedCtx f { feed s f with edits := r.1, announced := r.2.1 } s
  raiseLow f (match r.2.2 with
    | some d => actOn f d s1
    | none => s1)

/-- A feed at a frame boundary makes its frame choice: LIVE by R164, HELD by R176, TEST by R177; the others make none (R163). -/
def choose (f : Fin 4) (s : State) : State :=
  let c := feed s f
  if c.flight.isSome then s
  else
    match c.state with
    | .live => chooseLive f s
    | .held => if c.idleDue then actOn f .idle s else s
    | .test =>
      match c.test with
      | some t => if t.sent < t.asked then actOn f .test s else s
      | none => s
    | _ => s

/-- Every feed makes its choice: the Line Store has changed (R163; log entry 14). -/
def chooseAll (s : State) : State := allFeeds.foldl (fun s f => choose f s) s

/-! ## Edits and reclaims -/

/-- An edit queue with a serial more, and whether it overflowed (R170). -/
def queueEdit (serial : Nat) (q : List Nat) : List Nat × Bool :=
  if serial ∈ q then (q, false)
  else if q.length < editCapacity then (q ++ [serial], false)
  else (q.drop 1 ++ [serial], true)

/-- One feed takes an edit notice (R170). -/
def takeEdit (serial : Nat) (s : State) (f : Fin 4) : State :=
  let c := feed s f
  if c.state.enabled then
    let q := queueEdit serial c.edits
    refreshHealth f (setFeedCtx f { c with edits := q.1, outOfStep := c.outOfStep || q.2 } s)
  else s

/-- The edit notice of a line (R137, R170). -/
def editNotice (serial : Nat) (s : State) : State := allFeeds.foldl (takeEdit serial) s

/-- The nearest record below a serial that is not WITHDRAWN. -/
def below (rs : List Line) (serial : Nat) : Option Line :=
  (rs.filter (fun l => decide (l.serial < serial) && decide (l.state ≠ .withdrawn))).getLast?

/-- The feed owed a frame to a line about to be reclaimed (R171). -/
def owed (rs : List Line) (f : Fin 4) (c : Feed) (l : Line) : Bool :=
  (l.serial ∈ c.edits && visible c.audience l.cls)
    || (c.lowWater ≤ l.serial &&
        (match lookAt f c.audience c.announced (below rs l.serial) l with | .due _ => true | _ => false))

/-- One feed takes a reclaim notice; `rs` are the records before the reclaim (R171). -/
def takeReclaim (rs : List Line) (l : Line) (s : State) (f : Fin 4) : State :=
  let c := feed s f
  if c.state.enabled then
    refreshHealth f (setFeedCtx f { c with
      outOfStep := c.outOfStep || owed rs f c l
      edits := c.edits.filter (fun n => n ≠ l.serial) } s)
  else s

/-- The reclaim notice of a line (R135, R171). -/
def reclaimFeeds (rs : List Line) (l : Line) (s : State) : State := allFeeds.foldl (takeReclaim rs l) s

/-! ## Changes of a feed's state -/

/-- The feed's per-line fields at zero in every record held (R161). -/
def clearPerLine (f : Fin 4) (s : State) : State :=
  setRecords (s.lines.records.map (fun l => { l with sent := l.sent.set f 0, withdrawSent := l.withdrawSent.set f false })) s

/-- A feed becomes OFF (R161). -/
def becomeOff (f : Fin 4) (s : State) : State :=
  let c := feed s f
  refreshHealth f (removeDone (clearPerLine f (setFeedCtx f { c with
    state := .off, idleTimer := none, idleDue := false, stallTimer := none, edits := [], outOfStep := false, withheld := false
    flight := none } s)))

/-- The feed enters LIVE or HELD, as its hold sources say; its idle timer restarts (R168, R173, R174). -/
def enterByHold (f : Fin 4) (s : State) : State :=
  let c := feed s f
  setFeedCtx f { c with
    state := if holdActive s f then .held else .live
    idleTimer := some (s.now + c.idleInterval) } s

/-- The feed's active hold sources have changed: LIVE becomes HELD, or HELD becomes LIVE, and the feed chooses (R174, R175). -/
def holdChanged (f : Fin 4) (s : State) : State :=
  match (feed s f).state with
  | .live => if holdActive s f then choose f (refreshHealth f (enterByHold f s)) else s
  | .held => if holdActive s f then s else choose f (refreshHealth f (enterByHold f s))
  | _ => s

/-- One feed at Open Session (R184). -/
def feedAtOpen (s : State) (f : Fin 4) : State :=
  let c := feed s f
  match c.state with
  | .live | .held | .stalled | .stopping =>
    refreshHealth f (setFeedCtx f { c with lowWater := 1, announced := 0, edits := [], withheld := false, outOfStep := false } s)
  | _ => s

/-- The feeds at Open Session (R184). -/
def feedsAtOpen (s : State) : State := allFeeds.foldl feedAtOpen s

/-- A test ends: the record takes its outcome, the feed becomes OFF, and FEED_TEST_DONE is posted (R179). -/
def endTest (f : Fin 4) (o : TestOutcome) (s : State) : State :=
  let c := feed s f
  post .reporter .feedTestDone
    (becomeOff f (setFeedCtx f { c with test := c.test.map (fun t => { t with outcome := o }) } s))

end Sys2Proof.Machine
end

