-- ==== Sys2Proof/Machine/Journal.lean ====
section
/-! DEFINITION. The commands of the Journal Controller: the memory port's transfers and their ends (R34 to R39, R46, R47), recovery (R50,
R51), the block interval (R31), and the drain requests (R45 to R49). -/

namespace Sys2Proof.Machine

/-! ## The memory port -/

/-- BLOCK_WRITE_START: the arbiter starts the write of the queue's head to the next FREE slot (R34, R35). It does not occur unless the
port is idle and a write is ready. -/
def startWrite (s : State) : State :=
  if s.journal.port = .idle ∧ s.journal.cond.isFaulted = false then
    match s.journal.queue, nextFree s.journal.slots s.journal.lastSlot with
    | i :: rest, some slot =>
      match s.journal.buffers.get i with
      | .queued b _ =>
        { s with journal := { s.journal with
            buffers := s.journal.buffers.set i (.writing b slot)
            queue := rest
            lastSlot := slot
            port := .write i slot } }
      | _ => s
    | _, _ => s
  else s

/-- BLOCK_WRITE_START (R35). -/
def execBlockWriteStart (s : State) : Host.Outcome State Fault Refusal := .next (startWrite s)

/-- REPORTER_TRANSFER_START: the arbiter starts the waiting reporter transfer on the idle port; a ready write goes first, and no header
clear starts while the journal is FAULTED (R34, R38). -/
def startReporterTransfer (s : State) : State :=
  if s.journal.port = .idle ∧ writeReady s = false then
    match s.journal.waiting with
    | some (.clear slot seq) =>
      if s.journal.cond.isFaulted then s
      else { s with journal := { s.journal with port := .reporter (.clear slot seq), waiting := none } }
    | some (.read slot seq) =>
      { s with journal := { s.journal with port := .reporter (.read slot seq), waiting := none } }
    | none => s
  else s

/-- REPORTER_TRANSFER_START (R34). -/
def execReporterTransferStart (s : State) : Host.Outcome State Fault Refusal := .next (startReporterTransfer s)

/-- A block write completes successfully: slot STORED, failure count 0, buffer FREE, port idle, BLOCK_STORED posted (R36). -/
def writeStored (i : Fin 4) (slot : Nat) (b : Block) (s : State) : State :=
  post .reporter .blockStored { s with
    memory := s.memory.write slot b.bytes
    journal := { s.journal with
      slots := sparsePut slot
        (.stored { seq := b.seq, session := b.session, count := b.entries.length, firstEntry := b.firstEntry }) s.journal.slots
      failures := 0
      buffers := s.journal.buffers.set i .free
      port := .idle } }

/-- A block write fails: slot BAD, failure count 1 more, the buffer QUEUED again at the head of the queue (R37), still holding the slot it was
assigned, until its next write is assigned another (R26, R35). What has reached the slot is open (log entry 4). -/
def writeFailed (i : Fin 4) (slot : Nat) (b : Block) (s : State) : State :=
  { s with
    memory := s.memory.cut s.events slot b.bytes
    events := s.events + 1
    journal := { s.journal with
      slots := sparsePut slot .bad s.journal.slots
      failures := s.journal.failures + 1
      buffers := s.journal.buffers.set i (.queued b (some slot))
      queue := i :: s.journal.queue
      port := .idle } }

/-- The second consecutive failure makes the journal FAULTED (R37, R38, R47). -/
def failureCheck (s : State) : State :=
  if 2 ≤ s.journal.failures then enterFault .writeFailures s else s

/-- A freed buffer ends a suspension (R36, R43). -/
def resumeIfSuspended (i : Fin 4) (s : State) : State :=
  if s.journal.cond = .suspended then endSuspension i s else s

/-- The end of a block write (R36, R37, R39, R40). A write that runs when the journal becomes FAULTED by SEQUENCE_EXHAUSTED ends as R36 and R37
have it, so its buffer becomes FREE at a successful end (R38 says both that no write starts and that no buffer frees; log entry 41). -/
def endWrite (ok : Bool) (s : State) : State :=
  match s.journal.port with
  | .write i slot =>
    match s.journal.buffers.get i with
    | .writing b _ =>
      if ok then closingReport (resumeIfSuspended i (lowCheck s.journal (writeStored i slot b s)))
      else failureCheck (lowCheck s.journal (writeFailed i slot b s))
    | _ => s
  | _ => s

/-- BLOCK_WRITE_COMPLETE (R36). -/
def execBlockWriteComplete (ok : Bool) (s : State) : Host.Outcome State Fault Refusal := .next (endWrite ok s)

/-- The slot record after the stored block's CRC has been checked at a read (R46). -/
def recheck (t : SlotTable) (slot : Nat) (good : Bool) : SlotTable :=
  match sparseGet t slot with
  | some (.corrupt i) => if good then sparsePut slot (.stored i) t else t
  | some (.stored i) => if good then t else sparsePut slot (.corrupt i) t
  | _ => t

/-- What a read of a slot delivers. -/
def readData (m : Memory) (slot : Nat) : SlotRead → Option (List Byte)
  | .failed => none
  | .asHeld => some (m.read slot)
  | .altered bytes => some (fitSlot bytes)

/-- The end of a block read: the CRC is checked and the Read Journal Block response formed (R46, R218). -/
def endRead (r : SlotRead) (s : State) : State :=
  match s.journal.port with
  | .reporter (.read slot _) =>
    match readData s.memory slot r with
    | none => finish .reporter .corrupt [1#8] { s with journal := { s.journal with port := .idle } }
    | some bytes =>
      finish .reporter (if crcGood bytes then .ok else .corrupt) (0#8 :: bytes)
        { s with journal := { s.journal with port := .idle, slots := recheck s.journal.slots slot (crcGood bytes) } }
  | _ => s

/-- BLOCK_READ_COMPLETE (R46). -/
def execBlockReadComplete (r : SlotRead) (s : State) : Host.Outcome State Fault Refusal := .next (endRead r s)

/-- A header clear completes: slot FREE, failure count 0, the release answered OK (R47). -/
def clearDone (slot : Nat) (s : State) : State :=
  finish .reporter .ok [0#8] { s with
    memory := s.memory.write slot (clearedHeader (s.memory.read slot))
    journal := { s.journal with slots := sparseDrop slot s.journal.slots, failures := 0, port := .idle } }

/-- A header clear fails: slot BAD, failure count 1 more, the release answered OK, marked clear-failed (R47). The slot was STORED, so the
slot table's FREE slots stay as many; the number of R37 and R39 falls by 1 all the same (log entry 43). -/
def clearFailed (slot : Nat) (s : State) : State :=
  finish .reporter .ok [1#8] { s with
    memory := s.memory.cut s.events slot (List.replicate headerBytes 0#8)
    events := s.events + 1
    journal := { s.journal with
      slots := sparsePut slot .bad s.journal.slots
      failedClears := s.journal.failedClears + 1
      failures := s.journal.failures + 1
      port := .idle } }

/-- The end of a header clear (R38, R39, R47). -/
def endClear (ok : Bool) (s : State) : State :=
  match s.journal.port with
  | .reporter (.clear slot _) =>
    if ok then lowCheck s.journal (clearDone slot s)
    else failureCheck (lowCheck s.journal (clearFailed slot s))
  | _ => s

/-- HEADER_CLEAR_COMPLETE (R47). -/
def execHeaderClearComplete (ok : Bool) (s : State) : Host.Outcome State Fault Refusal := .next (endClear ok s)

/-! ## The block close interval -/

/-- The block close interval expires and the FILLING block closes INTERVAL (R31); the expiry does not occur before its time. -/
def intervalExpiry (s : State) : State :=
  if Timer.due s.journal.intervalTimer s.now then closeFilling .interval s else s

/-- BLOCK_INTERVAL_EXPIRY (R31). -/
def execBlockIntervalExpiry (s : State) : Host.Outcome State Fault Refusal := .next (intervalExpiry s)

/-! ## Recovery -/

/-- The classification of a slot whose 1,056 bytes were read; none is FREE (R50). -/
def classifyRead (bytes : List Byte) : Option SlotRec :=
  if headerValid bytes then
    some (if crcGood bytes then .stored (headerInfo bytes) else .corrupt (headerInfo bytes))
  else none

/-- The classification of a slot from the end of its recovery read (R50). -/
def classify (held : List Byte) : RecoveryRead → Option SlotRec
  | .headerFailed => some .bad
  | .restFailed => if headerValid held then some .bad else none
  | .asHeld => classifyRead held
  | .altered bytes => classifyRead (fitSlot bytes)

/-- The slot table with a slot's classification. -/
def setSlot (t : SlotTable) (slot : Nat) : Option SlotRec → SlotTable
  | none => sparseDrop slot t
  | some r => sparsePut slot r t

/-- Recovery runs: the state is START and RSTN is not held (R56). -/
def recovering (s : State) : Bool := s.session.st = .start && !s.pins.rstnHeld

/-- A recovery read of the next slot that is not BAD ends, and the slot is classified (R50). -/
def recoverSlot (r : RecoveryRead) (s : State) : State :=
  if recovering s then
    match nextRead s.journal.slots s.journal.cursor with
    | some slot =>
      { s with journal := { s.journal with
          slots := setSlot s.journal.slots slot (classify (s.memory.read slot) r)
          cursor := slot + 1 } }
    | none => s
  else s

/-- RECOVERY_SLOT_READ (R50). -/
def execRecoverySlotRead (r : RecoveryRead) (s : State) : Host.Outcome State Fault Refusal := .next (recoverSlot r s)

/-- A 32-bit counter set to `n`; past its end R51 states no value, and the counter reads a free one (log entry 11). -/
def counter32 (n : Nat) : Nat := if n ≤ max32 then n else (Config.counterPastEnd n).toNat

/-- The highest of a number over the stored blocks, 0 when none is stored. -/
def highestOf (f : SlotInfo → Nat) (bs : List (Nat × SlotInfo)) : Nat := bs.foldr (fun p m => Nat.max (f p.2) m) 0

/-- The journal when recovery completes: duplicates resolved and the counters set (R51). Where block sequence 4,294,967,295 is stored, it has
been taken, so the counter is spent as R30 has it and no block is opened: the write path never assigns a stored sequence (R25; log entry 11). -/
def recoveredJournal (j : Journal) : Journal :=
  let t := dedupe j.slots
  let bs := storedBlocks t
  { j with
    slots := t
    nextBlock := counter32 (highestOf (·.seq) bs + 1)
    nextEntry := counter32 (highestOf (fun i => i.firstEntry + i.count - 1) bs + 1)
    blockSpent := decide (max32 ≤ highestOf (·.seq) bs)
    lastSlot := ((highestBlock bs).map Prod.fst).getD (nSlots - 1)
    lastStored := highestOf (·.seq) bs
    corruptFound := corruptSlots j.slots
    failures := 0
    cond := .normal
    restartPending := true }

/-- START ends: the session number is the highest found, the state is STANDBY, both presence timers start with their first window, and
SESSION_STATE is posted (R51, R56, R211). -/
def finishRecovery (s : State) : State :=
  if recovering s ∧ nextRead s.journal.slots s.journal.cursor = none then
    let j := recoveredJournal s.journal
    postBoth .sessionState { s with
      journal := j
      session := { s.session with st := .standby, number := highestOf (·.session) (storedBlocks j.slots) }
      reporter := { s.reporter with timer := some (s.now + firstPresenceWindow) }
      bench := { s.bench with timer := some (s.now + firstPresenceWindow) } }
  else s

/-- RECOVERY_COMPLETE (R51). -/
def execRecoveryComplete (s : State) : Host.Outcome State Fault Refusal := .next (finishRecovery s)

/-! ## The drain requests -/

/-- A block of this sequence is held in a block buffer (R45, R47). -/
def inBuffer (q : Quad Buffer) (seq : Nat) : Bool :=
  q.toList.any (fun b => match b.block with | some k => k.seq = seq | none => false)

/-- Read Journal Block at the Journal Controller: 0 names OLDEST (R45, R217). -/
def readBlock (seq : Nat) (s : State) : Reply :=
  match (if seq = 0 then oldestStored s.journal.slots else findStored s.journal.slots seq) with
  | some (slot, i) => .wait { s with journal := { s.journal with waiting := some (.read slot i.seq) } }
  | none => if seq ≠ 0 ∧ inBuffer s.journal.buffers seq = true then refuse .notStored s else refuse .notFound s

/-- READ_JOURNAL_BLOCK (R45). -/
def execReadJournalBlock (l : Link) (tag : Byte) (p : Payload Nat) (s : State) : Host.Outcome State Fault Refusal :=
  .next (serve l tag .readJournalBlock p readBlock s)

/-- Release Journal Block at the Journal Controller (R47). -/
def releaseBlock (seq : Nat) (s : State) : Reply :=
  if s.journal.cond.isFaulted then refuse .journalFault s
  else
    match findStored s.journal.slots seq, oldestStored s.journal.slots with
    | some (slot, _), some (_, old) =>
      if old.seq = seq then .wait { s with journal := { s.journal with waiting := some (.clear slot seq) } }
      else refuse .outOfOrder s
    | _, _ => if inBuffer s.journal.buffers seq then refuse .notStored s else refuse .notFound s

/-- RELEASE_JOURNAL_BLOCK (R47). -/
def execReleaseJournalBlock (l : Link) (tag : Byte) (p : Payload Nat) (s : State) : Host.Outcome State Fault Refusal :=
  .next (serve l tag .releaseJournalBlock p releaseBlock s)

/-- Close Journal Block at the Journal Controller (R48). -/
def closeBlock (_ : Unit) (s : State) : Reply :=
  if s.journal.cond.isFaulted then refuse .journalFault s
  else
    match findFilling s.journal.buffers with
    | none => .done .ok (optField (be 4) none) s
    | some (_, b) => .done .ok (optField (be 4) (some b.seq)) (closeFilling .request s)

/-- CLOSE_JOURNAL_BLOCK (R48). -/
def execCloseJournalBlock (l : Link) (tag : Byte) (p : Payload Unit) (s : State) : Host.Outcome State Fault Refusal :=
  .next (serve l tag .closeJournalBlock p closeBlock s)

/-- The fault cause, present when FAULTED: WRITE_FAILURES 0, SEQUENCE_EXHAUSTED 1 (R38, R217). -/
def causeField : JCond → List Byte
  | .faulted .writeFailures => [1#8, 0#8]
  | .faulted .sequenceExhausted => [1#8, 1#8]
  | _ => [0#8]

/-- The numbers of FREE, STORED, STORED-CORRUPT and BAD slots. While recovery runs, a slot whose BAD record a warm reset kept counts BAD also
above the place recovery has reached (R50, R208; log entry 45). -/
def slotCounts (t : SlotTable) : List Byte :=
  be 2 (freeSlots t) ++ be 2 (storedSlots t) ++ be 2 (corruptSlots t) ++ be 2 (badSlots t)

/-- One buffer of Journal Summary: its state, and the block sequence and entry count of a buffer that is not FREE (R49), the two under one
presence byte, which stands there although the state tells already whether they follow (log entry 57). -/
def bufferField (b : Buffer) : List Byte :=
  be 1 b.code ++ optField (fun k => be 4 k.seq ++ be 1 k.entries.length) b.block

/-- A block read or header clear is waiting or running. -/
def transferBusy (s : State) : Bool :=
  s.journal.waiting.isSome || (match s.journal.port with | .reporter _ => true | _ => false)

/-- The Journal Summary response (R49); the four buffers stand without a count byte (log entry 51), the two sequences of the stored range under
one presence byte (log entry 57). The queue's head waits for a FREE slot where no slot is FREE, while the journal is FAULTED too (log
entry 58). -/
def summaryPayload (s : State) : List Byte :=
  be 1 (condCode s) ++ causeField s.journal.cond
    ++ slotCounts s.journal.slots
    ++ optField (fun p => be 4 p.1 ++ be 4 p.2)
        (match oldestStored s.journal.slots, newestStored s.journal.slots with
          | some o, some n => some (o.2.seq, n.2.seq)
          | _, _ => none)
    ++ s.journal.buffers.toList.flatMap bufferField
    ++ be 1 s.journal.queue.length
    ++ [flagByte (!s.journal.queue.isEmpty && freeSlots s.journal.slots = 0)]
    ++ be 4 s.journal.missedStrokes ++ optField (be 4) s.journal.firstMissed ++ be 4 s.journal.missedOther
    ++ be 4 s.journal.nextEntry ++ be 4 s.journal.nextBlock ++ be 1 s.journal.failures
    ++ [flagByte s.journal.restartPending, flagByte (transferBusy s)]

/-- Journal Summary at the Journal Controller (R49). -/
def readSummary (_ : Unit) (s : State) : Reply := .done .ok (summaryPayload s) s

/-- JOURNAL_SUMMARY (R49). -/
def execJournalSummary (l : Link) (tag : Byte) (p : Payload Unit) (s : State) : Host.Outcome State Fault Refusal :=
  .next (serve l tag .journalSummary p readSummary s)

end Sys2Proof.Machine
end

