-- ==== Sys2Proof/Machine/Classes.lean ====
section
/-! DEFINITION. Class Control (chapter 7): the effective class formed from its two sources, the deglitched sidebar line, Set Class, and
their commands. -/

namespace Sys2Proof.Machine

/-- The effective class of a bench class and an SBAR indication (R148). -/
def effectiveOf (bench : Cls) (sbar : Bool) : Cls := Cls.max bench (if sbar then .sidebar else .opn)

/-- The state with the effective class set. -/
def setEffective (c : Cls) (s : State) : State := { s with cls := { s.cls with effective := c } }

/-- The CLASS entry of a change from class `prev`, with its cause: 1 Set Class, 2 SBAR asserted, 3 SBAR deasserted (R150, R219). -/
def classEntry (prev : Cls) (cause : Nat) (s : State) : Entry :=
  { kind := .cls, attrs := clsAttrs s.cls.effective, seq := s.chords.strokes, time := s.session.clock
    fieldA := three s.cls.effective.code s.cls.bench.code (if s.cls.sbar then 1 else 0)
    fieldB := three prev.code cause 0 }

/-- The effective class is formed afresh; a change in LIVE or RECESS asks for a CLASS entry and posts CLASS_CHANGED (R148, R149). -/
def reformClass (cause : Nat) (s : State) : State :=
  let c := effectiveOf s.cls.bench s.cls.sbar
  if c = s.cls.effective then s
  else
    let s1 := setEffective c s
    if s.session.st.isOpen then postBoth .classChanged (append (classEntry s.cls.effective cause s1) s1) else s1

/-- The SBAR indication takes the level of SBAR, the deglitch timer stops, an assertion is posted, and the effective class is formed
afresh (R144, R146). -/
def takeSbar (s : State) : State :=
  let s1 := { s with cls := { s.cls with sbar := s.pins.sbar, timer := none } }
  if s.pins.sbar then reformClass 2 (postBoth .sidebarLine s1) else reformClass 3 s1

/-- Class Control compares a new level of SBAR with the indication: the deglitch timer starts or stops, or at setting 0 the level is
taken at once (R144). -/
def followSbar (s : State) : State :=
  if s.pins.sbar = s.cls.sbar then { s with cls := { s.cls with timer := none } }
  else if s.cls.setting = 0 then takeSbar s
  else { s with cls := { s.cls with timer := some (s.now + s.cls.setting) } }

/-- SBAR takes a level; while RSTN is held the change is not followed (R144, R155). -/
def sbarChanged (high : Bool) (s : State) : State :=
  if s.pins.sbar = high then s
  else
    let s1 := { s with pins := { s.pins with sbar := high } }
    if s.pins.rstnHeld then s1 else followSbar s1

/-- SBAR_CHANGE (R144). -/
def execSbarChange (high : Bool) (s : State) : Host.Outcome State Fault Refusal := .next (sbarChanged high s)

/-- The deglitch timer expires (R144); the expiry of a timer that is stopped does not occur. -/
def deglitchExpired (s : State) : State := if Timer.due s.cls.timer s.now then takeSbar s else s

/-- DEGLITCH_EXPIRY (R144). -/
def execDeglitchExpiry (s : State) : Host.Outcome State Fault Refusal := .next (deglitchExpired s)

/-- The Set Class response: bench class, SBAR indication, effective class (R147). -/
def classPayload (s : State) : List Byte :=
  be 1 s.cls.bench.code ++ [flagByte s.cls.sbar] ++ be 1 s.cls.effective.code

/-- Set Class at Class Control (R147). -/
def setClass (n : Nat) (s : State) : Reply :=
  if s.session.st.isOpen = false then refuse .wrongState s
  else
    match Cls.ofCode n with
    | none => refuse .range s
    | some c =>
      if s.cls.bench = c then refuse .already s
      else
        let s1 := reformClass 1 { s with cls := { s.cls with bench := c } }
        .done .ok (classPayload s1) s1

/-- SET_CLASS (R147). -/
def execSetClass (l : Link) (tag : Byte) (p : Payload Nat) (s : State) : Host.Outcome State Fault Refusal :=
  .next (serve l tag .setClass p setClass s)

/-- Class Control at Open Session: the bench class is OPEN and the effective class formed afresh, with no entry and no notice (R153). -/
def openClass (s : State) : State :=
  { s with cls := { s.cls with bench := .opn, effective := effectiveOf .opn s.cls.sbar } }

end Sys2Proof.Machine
end

