-- ==== Sys2Proof/Machine/KeyOps.lean ====
section
/-! DEFINITION. Depth conditioning (R2), the key state machine (R7 to R9), the marks on keys (R10, R11), and the opening, closing and
abandoning of a chord with the stroke it forms (R15 to R21). -/

namespace Sys2Proof.Machine

/-! ## Conditioning and the key state machine -/

/-- The conditioned depth of a raw sample under an offset and a gain (R2). -/
def conditionDepth (offset : Int) (gain sample : Nat) : Nat :=
  let travel : Int := (sample : Int) - (48 + offset)
  if travel ≤ 0 then 0 else min 1023 (travel.toNat * gain / 64)

/-- The release threshold max(P − H, 1) (R3). -/
def releaseThreshold (press hyst : Nat) : Nat := max (press - hyst) 1

/-- What a key's sample reports to the Chord Former. -/
inductive KeyMove where
  | stayed
  | wentDown
  | wentUp
deriving DecidableEq, Repr

/-- The key in UP, with count 0 and without the ignore mark (R8, R9, R10). -/
def Key.toUp (k : Key) : Key := { k with st := .up, count := 0, ignore := false }

/-- The key in DOWN, with count 0 (R7, R8). -/
def Key.toDown (k : Key) : Key := { k with st := .down, count := 0 }

/-- One step of the key state machine at depth `d`, which becomes the key's last depth (R2, R7, R8, R9). -/
def Key.step (pressCount releaseCount hyst : Nat) (k : Key) (d : Nat) : Key × KeyMove :=
  let r := releaseThreshold k.cond.press hyst
  let k := { k with depth := d }
  match k.st with
  | .up =>
    if k.cond.press ≤ d then
      if pressCount ≤ 1 then (k.toDown, .wentDown) else ({ k with st := .pressing, count := 1 }, .stayed)
    else (k, .stayed)
  | .pressing =>
    if k.cond.press ≤ d then
      if pressCount ≤ k.count + 1 then (k.toDown, .wentDown) else ({ k with count := k.count + 1 }, .stayed)
    else (k.toUp, .stayed)
  | .down =>
    if r ≤ d then (k, .stayed)
    else if releaseCount ≤ 1 then (k.toUp, .wentUp) else ({ k with st := .releasing, count := 1 }, .stayed)
  | .releasing =>
    if r ≤ d then (k.toDown, .stayed)
    else if releaseCount ≤ k.count + 1 then (k.toUp, .wentUp) else ({ k with count := k.count + 1 }, .stayed)
  | .stuck =>
    if r ≤ d then ({ k with count := 0 }, .stayed)
    else if releaseCount ≤ k.count + 1 then (k.toUp, .stayed) else ({ k with count := k.count + 1 }, .stayed)

/-! ## The keys of the KSU -/

/-- A key by index. -/
def keyAt (s : State) (i : Nat) : Key := s.ksu.keys.getD i Key.cold

/-- The state with one key replaced. -/
def setKey (i : Nat) (k : Key) (s : State) : State := { s with ksu := { s.ksu with keys := s.ksu.keys.set i k } }

/-- Every key taken through `f` with its index. -/
def mapKeys (f : Nat → Key → Key) (s : State) : State := { s with ksu := { s.ksu with keys := s.ksu.keys.mapIdx f } }

/-- The key is DOWN or RELEASING. -/
def Key.isHeld (k : Key) : Bool := k.st = .down || k.st = .releasing

/-- The key is PRESSING, DOWN or RELEASING. -/
def Key.isActive (k : Key) : Bool := k.st = .pressing || k.isHeld

/-- The ignore mark set on a key in PRESSING, DOWN or RELEASING (R10). -/
def Key.markIgnored (k : Key) : Key := if k.isActive then { k with ignore := true } else k

/-- The light-touched mark cleared. -/
def Key.untouched (k : Key) : Key := { k with touched := false }

/-- The session enters LIVE: the ignore mark on every key in PRESSING, DOWN or RELEASING (R10). -/
def ignoreActive (s : State) : State := mapKeys (fun _ k => k.markIgnored) s

/-- The light-touched marks cleared on every key (R11, R15, R19). -/
def clearTouched (s : State) : State := mapKeys (fun _ k => k.untouched) s

/-- The keys of a list that carry the light-touched mark, from index `i` on. -/
def touchedFrom : Nat → List Key → KeySet
  | _, [] => 0
  | i, k :: ks => (if k.touched then BitVec.twoPow 23 i else 0) ||| touchedFrom (i + 1) ks

/-- Some key of a set is DOWN or RELEASING (R17). -/
def anyHeld (press : KeySet) : Nat → List Key → Bool
  | _, [] => false
  | i, k :: ks => (press.getLsbD i && k.isHeld) || anyHeld press (i + 1) ks

/-! ## The chord -/

/-- The state with the Chord Former's chord replaced. -/
def setChord (c : Option Chord) (s : State) : State := { s with chords := { s.chords with chord := c } }

/-- A chord opens at key `i` (R15). -/
def openChord (i : Nat) (s : State) : State :=
  setChord (some { press := BitVec.twoPow 23 i, start := s.session.clock, held := false, stuckExcluded := false
                   hold := some (s.now + s.ksu.holdLimit) }) (clearTouched s)

/-- The chord is cleared with its light-touched marks (R11, R17). -/
def clearChord (s : State) : State := setChord none (clearTouched s)

/-- The open chord is abandoned: no stroke, the ignore mark on each key in PRESSING, DOWN or RELEASING (R19). With no chord open
nothing changes. -/
def abandonChord (s : State) : State :=
  match s.chords.chord with
  | none => s
  | some _ => clearChord (ignoreActive s)

/-- The STROKE entry of a stroke (R21, R28, R218, R219). -/
def strokeEntry (k : Stroke) : Entry :=
  { kind := .stroke, attrs := strokeAttrs k, seq := k.seq, time := k.time, fieldA := k.press.toNat, fieldB := k.shadow.toNat }

/-- The stroke a chord forms at its close (R17, R21). -/
def strokeOf (c : Chord) (s : State) : Stroke :=
  { seq := s.chords.strokes + 1, time := c.start, press := c.press
    shadow := touchedFrom 0 s.ksu.keys &&& ~~~c.press
    cls := s.cls.effective, held := c.held, stuckExcluded := c.stuckExcluded }

/-- The stroke is handed to the Translator, which takes it later (R21, R118; log entry 22). -/
def handOver (k : Stroke) (s : State) : State :=
  { s with trans := { s.trans with handed := s.trans.handed ++ [k] } }

/-- The stroke sequence counter set (R20). -/
def setStrokes (n : Nat) (s : State) : State := { s with chords := { s.chords with strokes := n } }

/-- A chord closes (R17, steps 2 to 5, and R18): at the top of the counter every chord that closes is abandoned (R20); below it, a chord with
an empty press set forms no stroke and is cleared. -/
def closeChord (c : Chord) (s : State) : State :=
  if max32 ≤ s.chords.strokes then abandonChord s
  else if c.press = 0 then clearChord s
  else
    let k := strokeOf c s
    clearChord (handOver k (append (strokeEntry k) (setStrokes k.seq s)))

/-! ## A key's report to the Chord Former -/

/-- A key has become DOWN (R10, R15, R16). -/
def keyWentDown (i : Nat) (s : State) : State :=
  if s.session.st ≠ .live then setKey i { keyAt s i with ignore := true } s
  else if (keyAt s i).ignore then s
  else
    match s.chords.chord with
    | none => openChord i s
    | some c => setChord (some { c with press := c.press ||| BitVec.twoPow 23 i }) s

/-- A key has reached UP from DOWN or RELEASING: the chord closes when it was the last held key of the press set (R17). -/
def keyWentUp (i : Nat) (s : State) : State :=
  match s.chords.chord with
  | none => s
  | some c => if c.press.getLsbD i ∧ anyHeld c.press 0 s.ksu.keys = false then closeChord c s else s

/-- A key's report (R7, R8). -/
def reportMove (i : Nat) : KeyMove → State → State
  | .stayed, s => s
  | .wentDown, s => keyWentDown i s
  | .wentUp, s => keyWentUp i s

/-- The light touch of a sample: `before` is the key as its sample found it (R11; log entry 9). -/
def lightTouch (i : Nat) (before : Key) (s : State) : State :=
  let k := keyAt s i
  if s.chords.chord.isSome ∧ 0 < k.cond.light ∧ (k.st = .up ∨ k.st = .pressing) ∧ k.cond.light ≤ k.depth
      ∧ before.ignore = false ∧ before.st ≠ .stuck
  then setKey i { k with touched := true } s
  else s

/-! ## Zeroing -/

/-- One key's sums with a raw sample more (R12). -/
def ZeroAcc.add (a : ZeroAcc) (sample : Nat) : ZeroAcc :=
  if a.count = 0 then { sum := a.sum + sample, count := 1, min := sample, max := sample }
  else { sum := a.sum + sample, count := a.count + 1, min := Nat.min a.min sample, max := Nat.max a.max sample }

/-- One key's sums at the start of a zeroing (R12). -/
def ZeroAcc.zero : ZeroAcc := { sum := 0, count := 0, min := 0, max := 0 }

/-- A running zeroing with the raw sample of key `i`: it collects the 64 scans after its start (R12; log entry 8). -/
def Zeroing.collect (z : Zeroing) (i sample : Nat) : Zeroing :=
  let begun := z.begun || i = 0
  if begun then
    { begun := true
      accs := z.accs.modify i (fun a => if a.count < zeroScans then a.add sample else a) }
  else z

/-- The offset a zeroing gives a key, and its outcome (R13). -/
def zeroKey (offset : Int) (a : ZeroAcc) : Int × ZeroOutcome :=
  if zeroSpread < a.max - a.min then (offset, .unstable)
  else
    let b : Int := (((a.sum + 32) / 64 : Nat) : Int) - 48
    if 511 < b then (511, .clamped) else (b, .updated)

/-- The zeroing has its 64th sample of the last key (R13). -/
def Zeroing.finished (z : Zeroing) : Bool := (z.accs.getD (nKeys - 1) ZeroAcc.zero).count = zeroScans

end Sys2Proof.Machine
end

