-- ==== Sys2Proof/Machine/Resets.lean ====
section
/-! DEFINITION. The resets (R53, R54, R56, R68) as each block states its part of them (R14, R22 to R24, R79, R91, R118, R142, R155, R185, R198,
R214), and the commands that bring them: POWER_ON, RSTN_ASSERT, RSTN_RELEASE, RESET_PART_TIMEOUT. -/

namespace Sys2Proof.Machine

/-! ## What a reset makes of each block -/

/-- The attached memory at a reset: a block write or header clear in progress is cut (R53, R54; log entry 4). -/
def cutTransfer (s : State) : State :=
  match s.journal.port with
  | .write i slot =>
    match (s.journal.buffers.get i).block with
    | some b => { s with memory := s.memory.cut s.events slot b.bytes, events := s.events + 1 }
    | none => s
  | .reporter (.clear slot _) =>
    { s with memory := s.memory.cut s.events slot (List.replicate headerBytes 0#8), events := s.events + 1 }
  | _ => s

/-- A key at a warm reset: its conditioning record is kept (R23). -/
def Key.atWarm (k : Key) : Key := { Key.cold with cond := k.cond }

/-- The KSU at a warm reset (R14, R23). -/
def Ksu.atWarm (k : Ksu) : Ksu :=
  { k with
    keys := k.keys.map Key.atWarm, scanPos := 0, zeroing := none
    zeroResult := if k.zeroing.isSome then .abandoned else k.zeroResult }

/-- The Dictionary Store at a warm reset (R79, R87, R91). -/
def Dict.atWarm (d : Dict) : Dict :=
  let ready := d.mainState = .ready
  { d with
    mainState := if ready then .ready else .empty
    main := if ready then d.main else []
    poolUse := if ready then d.poolUse else 0
    group := none
    resetDiscard := d.group.map List.length }

/-- Class Control at a reset, with SBAR sampled (R155). -/
def ClassCtl.atReset (sbar : Bool) (setting : Nat) : ClassCtl :=
  { bench := .opn, sbar := sbar, timer := none, setting := setting, effective := effectiveOf .opn sbar }

/-- A feed at a warm reset (R185). -/
def Feed.atWarm (c : Feed) : Feed := Feed.atReset c.audience c.rate c.backfill c.idleInterval c.stallTime

/-- The parts of the state that both resets leave alike, on the state after the cut of a transfer (R24, R53, R54, R56, R118, R142, R198). -/
def warmReset (cause : ResetCause) (s0 : State) : State :=
  let s := cutTransfer s0
  { s with
    ksu := s.ksu.atWarm
    chords := { chord := none, strokes := 0 }
    session := Session.atStart cause
    journal := Journal.atStart (onlyBad s.journal.slots) s.journal.interval
    dict := s.dict.atWarm
    trans := Translator.emptied s.trans.setting
    lines := LineStore.emptied s.lines.width s.lines.pageLen s.lines.settle
    cls := ClassCtl.atReset s.pins.sbar s.cls.setting
    feeds := { ctx := s.feeds.ctx.map Feed.atWarm, gate := !s.pins.fgate3 }
    marks := MarkTable.emptied
    reporter := LinkState.atReset s.reporter.presenceTime s.reporter.fetched
    bench := LinkState.atReset s.bench.presenceTime s.bench.fetched }

/-- The part after a cold reset, with the levels on its pins sampled (R22, R53, R56, R80, R91, R155, R185, R214); what stands outside the part
(the memory, the pins, the time, the waiting commands) stays. -/
def coldReset (s0 : State) : State :=
  let s := cutTransfer s0
  { State.reset with
    memory := s.memory
    cls := ClassCtl.atReset s.pins.sbar defDeglitch
    feeds := { ctx := Quad.const Feed.cold, gate := !s.pins.fgate3 }
    reporter := LinkState.atReset defPresence s.reporter.fetched
    bench := LinkState.atReset defPresence s.bench.fetched
    pins := s.pins
    now := s.now
    events := s.events
    pending := s.pending }

/-! ## The commands -/

/-- POWER_ON (R56): a power cycle, in any state (log entry 36). -/
def execPowerOn (s : State) : Host.Outcome State Fault Refusal := .next (coldReset s)

/-- RSTN held asserted or not. -/
def setHeld (held : Bool) (s : State) : State := { s with pins := { s.pins with rstnHeld := held } }

/-- RSTN is asserted: a warm reset, and the part stays at the start of START while RSTN is held (R56); an RSTN that is held already is not
asserted again. -/
def rstnAsserted (s : State) : State := if s.pins.rstnHeld then s else setHeld true (warmReset .rstn s)

/-- RSTN_ASSERT (R56). -/
def execRstnAssert (s : State) : Host.Outcome State Fault Refusal := .next (rstnAsserted s)

/-- RSTN is released: SBAR and FGATE3 are sampled, and recovery begins (R56, R155, R185). -/
def rstnReleased (s : State) : State :=
  if s.pins.rstnHeld then
    { setHeld false s with
      cls := ClassCtl.atReset s.pins.sbar s.cls.setting
      feeds := { s.feeds with gate := !s.pins.fgate3 } }
  else s

/-- RSTN_RELEASE (R56). -/
def execRstnRelease (s : State) : Host.Outcome State Fault Refusal := .next (rstnReleased s)

/-- 100 ms have passed since the response of a Reset Part became ready (R68); before that, or with none taken, nothing occurs. -/
def resetPartExpired (s : State) : State :=
  if Timer.due s.session.resetPartDue s.now then warmReset .resetPart s else s

/-- RESET_PART_TIMEOUT (R68). -/
def execResetPartTimeout (s : State) : Host.Outcome State Fault Refusal := .next (resetPartExpired s)

end Sys2Proof.Machine
end

