-- ==== Sys2Proof/Machine/Links.lean ====
section
/-! DEFINITION. The commands of the two links (chapter 10): a fetch (R204), malformed, discarded and unknown frames (R201, R203, R205), the
presence timers (R212), Get Status (R208), Read Attention (R209) and Set Translation Parameters (R207). -/

namespace Sys2Proof.Machine

/-! ## The fetch -/

/-- The first `n` bytes a READY link sends: the response with its link flags, then zeros (R204). -/
def fetchBytes (k : LinkState) (r : Response) (n : Nat) : List Byte :=
  (r.bytes (k.attn ≠ 0) k.discard ++ List.replicate (n - r.size) 0#8).take n

/-- The bytes sent on data out recorded (log entry 25). -/
def sent (l : Link) (bytes : List Byte) (s : State) : State := s.setLink l { s.link l with fetched := bytes }

/-- The whole response has been read: the link is IDLE, and the discard indication that the flags told of is cleared (R204). -/
def readWhole (l : Link) (bytes : List Byte) (s : State) : State :=
  s.setLink l { s.link l with exch := .idle, discard := false, fetched := bytes }

/-- A Reset Part whose response the reporter station has read takes effect (R68). -/
def resetIfArmed (l : Link) (s : State) : State :=
  if l = .reporter ∧ s.session.resetPartDue.isSome = true then warmReset .resetPart s else s

/-- A fetch of `n` bytes (R200, R204, R214). -/
def fetched (l : Link) (n : Nat) (s : State) : State :=
  if n = 0 then s
  else if s.pins.rstnHeld then sent l (List.replicate n 0#8) s
  else
    match (s.link l).exch with
    | .ready r =>
      let bytes := fetchBytes (s.link l) r n
      if r.size ≤ n then resetIfArmed l (readWhole l bytes s) else sent l bytes s
    | _ => sent l (List.replicate n 0#8) s

/-- FETCH (R204). -/
def execFetch (l : Link) (n : Nat) (s : State) : Host.Outcome State Fault Refusal := .next (fetched l n s)

/-! ## Frames that reach no block -/

/-- The FRAME_ERROR response (R205). -/
def errorResponse (bytes : List Byte) : Response :=
  { code := bytes.getD 0 0#8, tag := bytes.getD 1 0#8, status := .frameError, payload := [] }

/-- The bytes of a transfer are those of a request write: at least one byte, the first not 0x00 (R200). -/
def isWrite (bytes : List Byte) : Bool :=
  match bytes with
  | [] => false
  | b :: _ => b ≠ 0#8

/-- A malformed frame ends: answered FRAME_ERROR in IDLE, discarded otherwise, and presence is not touched (R203, R205); while RSTN is held the
transfer is ignored (R214). -/
def frameMalformed (l : Link) (bytes : List Byte) (s : State) : State :=
  if isWrite bytes = false ∨ malformed bytes = false then s
  else if s.pins.rstnHeld then writeOver l s
  else
    match (s.link l).exch with
    | .idle => respond l (errorResponse bytes) (writeOver l s)
    | _ => discardFrame l (writeOver l s)

/-- FRAME_ERROR (R205). -/
def execFrameError (l : Link) (bytes : List Byte) (s : State) : Host.Outcome State Fault Refusal := .next (frameMalformed l bytes s)

/-- A frame meets a link EXECUTING or READY: it is discarded, and a frame of agreeing length counts for presence (R203). On an IDLE link no
frame is discarded. -/
def frameThrownAway (l : Link) (bytes : List Byte) (s : State) : State :=
  if isWrite bytes = false then s
  else if s.pins.rstnHeld then writeOver l s
  else
    match (s.link l).exch with
    | .idle => s
    | _ => discardFrame l (if malformed bytes then writeOver l s else touchPresence l s)

/-- FRAME_DISCARDED (R203). -/
def execFrameDiscarded (l : Link) (bytes : List Byte) (s : State) : Host.Outcome State Fault Refusal :=
  .next (frameThrownAway l bytes s)

/-- All the requests. -/
def Req.all : List Req :=
  [.getStatus, .readAttention, .readLines, .setMark, .removeMark, .listMarks, .readFeedHealth,
   .setTranslationParameters, .setKeyConditioning, .setChordTiming, .zeroKeys, .readKeyDepths,
   .beginMainLoad, .loadEntries, .endMainLoad, .openGroup, .stageDefine, .stageRemove, .commitGroup, .abandonGroup,
   .clearJobTier, .lookUp,
   .openSession, .recess, .resume, .closeSession, .resetPart,
   .readJournalBlock, .releaseJournalBlock, .closeJournalBlock, .journalSummary,
   .editLine,
   .setFeed, .enableFeed, .disableFeed, .testFeed,
   .setClass, .holdFeeds, .releaseFeeds]

/-- The request a code names (R217). -/
def Req.ofCode (c : Byte) : Option Req := Req.all.find? (fun r => r.code = c)

/-- The code is one no request has; 0x00 is never a request code (R216, R217). -/
def unknownCode (c : Byte) : Bool := c ≠ 0#8 && (Req.ofCode c).isNone

/-- The status of a valid frame whose code names no request (R201, steps 1 and 2). -/
def unknownStatus (s : State) : Status := if s.session.st = .start then .notReady else .unknownRequest

/-- A valid frame with an unknown code ends (R201, R203). -/
def frameUnknown (l : Link) (code tag : Byte) (s : State) : State :=
  if unknownCode code = false then s
  else if s.pins.rstnHeld then writeOver l s
  else
    let s1 := touchPresence l s
    match (s1.link l).exch with
    | .idle => respond l { code := code, tag := tag, status := unknownStatus s, payload := [] } s1
    | _ => discardFrame l s1

/-- UNKNOWN_REQUEST (R201). -/
def execUnknownRequest (l : Link) (code tag : Byte) (s : State) : Host.Outcome State Fault Refusal :=
  .next (frameUnknown l code tag s)

/-! ## Presence -/

/-- A link loses presence: ABSENT, timer stopped, the other link told; the loss of the reporter discards an open group (R87, R154, R212). -/
def losePresence (l : Link) (s : State) : State :=
  let s1 := post (otherLink l) (presenceNotice l) (s.setLink l { s.link l with present := false, timer := none })
  match l with
  | .reporter => discardGroup s1
  | .bench => s1

/-- The presence timer of a link expires (R212); the expiry of a timer that is stopped or not yet due does not occur. -/
def presenceExpired (l : Link) (s : State) : State :=
  if Timer.due (s.link l).timer s.now then losePresence l s else s

/-- PRESENCE_TIMER_EXPIRY (R212). -/
def execPresenceTimerExpiry (l : Link) (s : State) : Host.Outcome State Fault Refusal := .next (presenceExpired l s)

/-! ## Get Status -/

/-- The part group: identity, revision and capacities (R208). -/
def partGroup : List Byte :=
  be 2 0x2216 ++ [0x42#8]
    ++ be 1 nKeys ++ be 2 nSlots ++ be 1 4 ++ be 4 mainCapacity ++ be 4 poolCapacity ++ be 2 jobCapacity ++ be 1 groupCapacity
    ++ be 1 keyStrokes ++ be 1 historyCapacity ++ be 2 lineCapacity ++ be 1 markCapacity ++ be 1 4 ++ be 1 editCapacity

/-- The reset group (R208). -/
def resetGroup (s : State) : List Byte := be 1 s.session.cause.code ++ optField (be 1) s.dict.resetDiscard

/-- The session group (R208). -/
def sessionGroup (s : State) : List Byte :=
  be 1 s.session.st.code ++ be 2 s.session.number ++ be 4 s.session.clock ++ be 4 s.chords.strokes
    ++ [flagByte s.ksu.zeroing.isSome]

/-- The lines group (R208). -/
def linesGroup (s : State) : List Byte := be 4 s.lines.counter ++ be 4 (oldestHeld s.lines)

/-- The class group (R208). -/
def classGroup (s : State) : List Byte :=
  be 1 s.cls.effective.code ++ be 1 s.cls.bench.code ++ [flagByte s.cls.sbar, flagByte s.cls.timer.isSome]

/-- PRESENT 0, ABSENT 1 (R199, R217). -/
def presentByte (k : LinkState) : List Byte := be 1 (if k.present then 0 else 1)

/-- The number of buffers in the state of a code (R208). -/
def bufferCount (q : Quad Buffer) (code : Nat) : List Byte := be 1 (q.toList.filter (fun b => b.code = code)).length

/-- The journal group (R208). -/
def journalGroup (s : State) : List Byte :=
  be 1 (condCode s) ++ slotCounts s.journal.slots
    ++ bufferCount s.journal.buffers 0 ++ bufferCount s.journal.buffers 1 ++ bufferCount s.journal.buffers 2
    ++ bufferCount s.journal.buffers 3
    ++ be 4 s.journal.missedStrokes ++ be 4 s.journal.missedOther

/-- The dictionary group (R208). -/
def dictGroup (s : State) : List Byte :=
  be 1 s.dict.mainState.code ++ mainCounts s.dict ++ be 2 s.dict.job.length
    ++ optField (fun (g : List Staged) => be 1 g.length) s.dict.group ++ be 2 s.dict.groupNumber

/-- The Get Status response (R208). -/
def statusPayload (s : State) : List Byte :=
  partGroup ++ resetGroup s ++ sessionGroup s ++ linesGroup s ++ classGroup s
    ++ presentByte s.reporter ++ presentByte s.bench ++ journalGroup s ++ dictGroup s

/-- Get Status at the link (R208): it changes nothing. -/
def getStatus (_ : Unit) (s : State) : Reply := .done .ok (statusPayload s) s

/-- GET_STATUS (R208). -/
def execGetStatus (l : Link) (tag : Byte) (p : Payload Unit) (s : State) : Host.Outcome State Fault Refusal :=
  .next (serve l tag .getStatus p getStatus s)

/-! ## Read Attention -/

/-- The Read Attention response: flag word, latched codes, SBAR indication (R209, R217). -/
def attentionPayload (k : LinkState) (s : State) : List Byte :=
  flagWord k.attn ++ k.latched.toList.flatMap (fun h => be 1 h.code) ++ [flagByte s.cls.sbar]

/-- The latch set emptied and the latched codes set to the current codes (R182, R209). -/
def readLatch (l : Link) (s : State) : State :=
  s.setLink l { s.link l with attn := 0#20, latched := s.feeds.ctx.map (·.health) }

/-- Read Attention at the link (R209). -/
def readAttention (l : Link) (_ : Unit) (s : State) : Reply := .done .ok (attentionPayload (s.link l) s) (readLatch l s)

/-- READ_ATTENTION (R209). -/
def execReadAttention (l : Link) (tag : Byte) (p : Payload Unit) (s : State) : Host.Outcome State Fault Refusal :=
  .next (serve l tag .readAttention p (readAttention l) s)

/-! ## Set Translation Parameters -/

/-- The marks of R207, in their order: SET 0, CLAMPED 1, NOT_APPLIED 2, KEPT 3. -/
inductive ParamMark where
  | set
  | clamped
  | notApplied
  | kept
deriving DecidableEq, Repr

/-- The mark's number (R207, R217). -/
def ParamMark.code : ParamMark → Nat
  | .set => 0
  | .clamped => 1
  | .notApplied => 2
  | .kept => 3

/-- One value: its setting after the request and its mark; `applies` tells whether a given value is applied (R207). -/
def param (applies : Bool) (clamp : Nat → Nat) (old : Nat) : Option Nat → Nat × ParamMark
  | none => (old, .kept)
  | some v => if applies then (clamp v, if clamp v = v then .set else .clamped) else (old, .notApplied)

/-- The resolution timer's clamp: 0, or 100..5,000 (R97, R207). -/
def clampResolution (v : Nat) : Nat := if v = 0 then 0 else clampTo 100 5000 v

/-- A value's field in the response: its setting in `w` bytes, and its mark. -/
def paramField (w : Nat) (p : Nat × ParamMark) : List Byte := be w p.1 ++ be 1 p.2.code

/-- Set Translation Parameters at the part (R207): W, L and S are applied in STANDBY alone (R121). -/
def setParams (a : ParamArgs) (s : State) : Reply :=
  let standby := decide (s.session.st = .standby)
  let res := param true clampResolution s.trans.setting a.resolution
  let w := param standby (clampTo 24 64) s.lines.width a.width
  let pl := param standby (clampTo 20 30) s.lines.pageLen a.pageLen
  let se := param standby (clampTo 1 4) s.lines.settle a.settle
  let iv := param true (clampTo 250 10000) s.journal.interval a.interval
  let dg := param true (clampTo 0 255) s.cls.setting a.deglitch
  let rp := param true (clampTo 500 10000) s.reporter.presenceTime a.repPresence
  let bp := param true (clampTo 500 10000) s.bench.presenceTime a.benchPresence
  .done .ok (paramField 2 res ++ paramField 1 w ++ paramField 1 pl ++ paramField 1 se ++ paramField 2 iv ++ paramField 1 dg
      ++ paramField 2 rp ++ paramField 2 bp)
    { s with
      trans := { s.trans with setting := res.1 }
      lines := { s.lines with width := w.1, pageLen := pl.1, settle := se.1 }
      journal := { s.journal with interval := iv.1 }
      cls := { s.cls with setting := dg.1 }
      reporter := { s.reporter with presenceTime := rp.1 }
      bench := { s.bench with presenceTime := bp.1 } }

/-- SET_TRANSLATION_PARAMETERS (R207). -/
def execSetTranslationParameters (l : Link) (tag : Byte) (p : Payload ParamArgs) (s : State) : Host.Outcome State Fault Refusal :=
  .next (serve l tag .setTranslationParameters p setParams s)

end Sys2Proof.Machine
end

