-- ==== Sys2Proof/Decode.lean ====
section
/-! DEFINITION. From bits to commands. spec/opcode_table.json gives its rows no bits, so no table word spells a command
(`decodeTableWord`). What spec/ does give is the transfer on a link: its bytes spell a command by R200, R201, R203, R205, R216 and R217, in
`decodeTransfer`, whose converse for the requests is `encodeRequest`. -/

namespace Sys2Proof

/-- The command a table word spells: no row of the table has bits, so none (log entry 37). -/
def decodeTableWord (_nbits _w : Nat) : Option Instr := none

/-! ## Fields of a payload (R217) -/

/-- A reader of one field: its value and the bytes after it, or none where the bytes run out or a presence byte is neither 0 nor 1. -/
abbrev Reader (α : Type) := List Byte → Option (α × List Byte)

/-- A given number of bytes. -/
def readBytes (n : Nat) : Reader (List Byte) := fun bs => if n ≤ bs.length then some (bs.take n, bs.drop n) else none

/-- A number of `w` bytes, most significant first. -/
def readNum (w : Nat) : Reader Nat := fun bs => (readBytes w bs).map (fun p => (Machine.ofBe p.1, p.2))

/-- A number of two bytes in two's complement. -/
def readSigned : Reader Int := fun bs =>
  (readNum 2 bs).map (fun p => (if 32768 ≤ p.1 then (p.1 : Int) - 65536 else (p.1 : Int), p.2))

/-- A text: a length byte and the characters. -/
def readText : Reader (List Byte) := fun bs =>
  match readNum 1 bs with
  | some (n, r) => readBytes n r
  | none => none

/-- An optional field: a presence byte, and the field when present. -/
def readOpt {α : Type} (rd : Reader α) : Reader (Option α) := fun bs =>
  match bs with
  | [] => none
  | b :: r => if b = 0#8 then some (none, r) else if b = 1#8 then (rd r).map (fun p => (some p.1, p.2)) else none

/-- A given number of fields of one kind. -/
def readMany {α : Type} (rd : Reader α) : Nat → Reader (List α)
  | 0, bs => some ([], bs)
  | n + 1, bs =>
    match rd bs with
    | none => none
    | some (a, r) => (readMany rd n r).map (fun p => (a :: p.1, p.2))

/-- A list: a count byte and its members. -/
def readList {α : Type} (rd : Reader α) : Reader (List α) := fun bs =>
  match readNum 1 bs with
  | some (n, r) => readMany rd n r
  | none => none

/-- A press set of three bytes. -/
def readSet : Reader (BitVec 24) := fun bs => (readNum 3 bs).map (fun p => (BitVec.ofNat 24 p.1, p.2))

/-- A dictionary key. -/
def readKey : Reader (List (BitVec 24)) := readList readSet

/-- A reader followed by another. -/
def andThen {α β : Type} (ra : Reader α) (rb : α → Reader β) : Reader β := fun bs =>
  match ra bs with
  | some (a, r) => rb a r
  | none => none

/-- A value with no bytes of its own. -/
def give {α : Type} (a : α) : Reader α := fun bs => some (a, bs)

/-- A payload read whole: the fields, or a length that is not the one its fields give (R201 step 4, R217; log entry 24). -/
def readAll {α : Type} (rd : Reader α) (bs : List Byte) : Payload α :=
  match rd bs with
  | some (a, []) => .fields a
  | _ => .badLength

/-! ## The payloads of the requests -/

/-- A payload of no fields. -/
def readUnit : Reader Unit := give ()

/-- A dictionary entry (R70, R76, R82). -/
def readEntry : Reader RawEntry :=
  andThen readKey fun k => andThen readText fun t => andThen (readBytes 1) fun f =>
    give { key := k, text := t, flags := f.headD 0#8 }

/-- The starting point of Read Lines (R138; log entry 18). -/
def readStart : Reader LineStart := fun bs =>
  match bs with
  | [] => none
  | b :: r =>
    if b = 0#8 then (readNum 4 r).map (fun p => (.serial p.1, p.2))
    else if b = 1#8 then andThen (readNum 2) (fun pg => andThen (readNum 1) fun ln => give (.pageLine pg ln)) r
    else none

/-- Read Lines (R138). -/
def readReadLines : Reader ReadLinesArgs :=
  andThen readStart fun st => andThen (readNum 1) fun c => give { start := st, count := c }

/-- Set Mark (R188). -/
def readSetMark : Reader SetMarkArgs :=
  andThen (readNum 4) fun n => andThen (readNum 1) fun k => andThen (readOpt readText) fun lb =>
    give { serial := n, kind := k, label := lb }

/-- List Marks (R192). The starting id takes 1 byte, as a mark id does (R217), so the position after a record with id 255 is spelled as the next
serial with id 0 (log entry 56). -/
def readListMarks : Reader ListMarksArgs :=
  andThen (readNum 1) fun fl => andThen (readNum 4) fun n => andThen (readNum 1) fun i =>
    give { filter := fl, serial := n, id := i }

/-- Set Translation Parameters (R207). -/
def readParams : Reader ParamArgs :=
  andThen (readOpt (readNum 2)) fun r => andThen (readOpt (readNum 1)) fun w => andThen (readOpt (readNum 1)) fun pl =>
    andThen (readOpt (readNum 1)) fun se => andThen (readOpt (readNum 2)) fun iv => andThen (readOpt (readNum 1)) fun dg =>
      andThen (readOpt (readNum 2)) fun rp => andThen (readOpt (readNum 2)) fun bp =>
        give { resolution := r, width := w, pageLen := pl, settle := se, interval := iv, deglitch := dg
               repPresence := rp, benchPresence := bp }

/-- Set Key Conditioning (R4). -/
def readKeyCond : Reader KeyCondArgs :=
  andThen (readNum 1) fun k => andThen readSigned fun b => andThen (readNum 1) fun g => andThen (readNum 2) fun pr =>
    andThen (readNum 2) fun li => give { key := k, offset := b, gain := g, press := pr, light := li }

/-- Set Chord Timing (R5). -/
def readTiming : Reader ChordTimingArgs :=
  andThen (readNum 1) fun a => andThen (readNum 1) fun b => andThen (readNum 1) fun h => andThen (readNum 2) fun ho =>
    andThen (readNum 2) fun sc =>
      give { pressCount := a, releaseCount := b, hysteresis := h, holdLimit := ho, scanInterval := sc }

/-- Edit Line (R136). -/
def readEdit : Reader EditLineArgs := andThen (readNum 4) fun n => andThen readText fun t => give { serial := n, text := t }

/-- Set Feed (R159). -/
def readSetFeed : Reader SetFeedArgs :=
  andThen (readNum 1) fun f => andThen (readNum 1) fun a => andThen (readNum 1) fun r => andThen (readNum 2) fun b =>
    andThen (readNum 2) fun i => andThen (readNum 2) fun st =>
      give { feed := f, audience := a, rate := r, backfill := b, idle := i, stall := st }

/-- Test Feed (R177). -/
def readTestFeed : Reader TestFeedArgs := andThen (readNum 1) fun f => andThen (readNum 1) fun n => give { feed := f, count := n }

/-- A feed set (R174). -/
def readFeedSet : Reader Byte := andThen (readBytes 1) fun b => give (b.headD 0#8)

/-! ## A transfer -/

/-- The command of a valid frame whose code names a request. -/
def decodeRequest (l : Link) (tag : Byte) (bs : List Byte) : Machine.Req → Instr
  | .getStatus => .getStatus l tag (readAll readUnit bs)
  | .readAttention => .readAttention l tag (readAll readUnit bs)
  | .readLines => .readLines l tag (readAll readReadLines bs)
  | .setMark => .setMark l tag (readAll readSetMark bs)
  | .removeMark => .removeMark l tag (readAll (readNum 1) bs)
  | .listMarks => .listMarks l tag (readAll readListMarks bs)
  | .readFeedHealth => .readFeedHealth l tag (readAll readUnit bs)
  | .setTranslationParameters => .setTranslationParameters l tag (readAll readParams bs)
  | .setKeyConditioning => .setKeyConditioning l tag (readAll readKeyCond bs)
  | .setChordTiming => .setChordTiming l tag (readAll readTiming bs)
  | .zeroKeys => .zeroKeys l tag (readAll readUnit bs)
  | .readKeyDepths => .readKeyDepths l tag (readAll readUnit bs)
  | .beginMainLoad => .beginMainLoad l tag (readAll readUnit bs)
  | .loadEntries => .loadEntries l tag (readAll (readList readEntry) bs)
  | .endMainLoad => .endMainLoad l tag (readAll readUnit bs)
  | .openGroup => .openGroup l tag (readAll readUnit bs)
  | .stageDefine => .stageDefine l tag (readAll readEntry bs)
  | .stageRemove => .stageRemove l tag (readAll readKey bs)
  | .commitGroup => .commitGroup l tag (readAll readUnit bs)
  | .abandonGroup => .abandonGroup l tag (readAll readUnit bs)
  | .clearJobTier => .clearJobTier l tag (readAll readUnit bs)
  | .lookUp => .lookUp l tag (readAll readKey bs)
  | .openSession => .openSession l tag (readAll readUnit bs)
  | .recess => .recess l tag (readAll readUnit bs)
  | .resume => .resume l tag (readAll readUnit bs)
  | .closeSession => .closeSession l tag (readAll readUnit bs)
  | .resetPart => .resetPart l tag (readAll readUnit bs)
  | .readJournalBlock => .readJournalBlock l tag (readAll (readNum 4) bs)
  | .releaseJournalBlock => .releaseJournalBlock l tag (readAll (readNum 4) bs)
  | .closeJournalBlock => .closeJournalBlock l tag (readAll readUnit bs)
  | .journalSummary => .journalSummary l tag (readAll readUnit bs)
  | .editLine => .editLine l tag (readAll readEdit bs)
  | .setFeed => .setFeed l tag (readAll readSetFeed bs)
  | .enableFeed => .enableFeed l tag (readAll (readNum 1) bs)
  | .disableFeed => .disableFeed l tag (readAll (readNum 1) bs)
  | .testFeed => .testFeed l tag (readAll readTestFeed bs)
  | .setClass => .setClass l tag (readAll (readNum 1) bs)
  | .holdFeeds => .holdFeeds l tag (readAll readFeedSet bs)
  | .releaseFeeds => .releaseFeeds l tag (readAll readFeedSet bs)

/-- The command of a valid frame (R201). -/
def decodeFrame (l : Link) (code tag : Byte) (bs : List Byte) : Instr :=
  match Machine.Req.ofCode code with
  | some r => decodeRequest l tag bs r
  | none => .unknownRequest l code tag

/-- The command that a transfer's bytes make on a link that is IDLE or not; a transfer of no byte makes none (R200, R203, R205). -/
def decodeTransfer (l : Link) (idle : Bool) (bytes : List Byte) : Option Instr :=
  match bytes with
  | [] => none
  | b :: r =>
    if b = 0#8 then some (.fetch l bytes.length)
    else if idle = false then some (.frameDiscarded l bytes)
    else if Machine.malformed bytes then some (.frameError l bytes)
    else some (decodeFrame l b (r.headD 0#8) (bytes.drop 4))

/-- A transfer on a link as its chip select frames it: the bytes clocked on data in, and whether a reset arrived, or RSTN was asserted, while
chip select was asserted for it (R200, R214). -/
structure Transfer where
  link  : Link
  bytes : List Byte
  cutByReset : Bool
deriving DecidableEq, Repr

/-- The command a transfer makes at its end: none when a reset arrived while it was under chip select, since it is ignored to its end and the
link takes the next transfer afresh (R214; log entry 46). -/
def Transfer.command (t : Transfer) (idle : Bool) : Option Instr :=
  if t.cutByReset then none else decodeTransfer t.link idle t.bytes

/-! ## The encoding of a request -/

/-- A request frame (R216). -/
def frameBytes (r : Machine.Req) (tag : Byte) (payload : List Byte) : List Byte :=
  [r.code, tag] ++ Machine.be 2 payload.length ++ payload

/-- A request frame whose payload's fields are given; a payload of wrong length has no one encoding. -/
def encodeWith {α : Type} (l : Link) (r : Machine.Req) (tag : Byte) (enc : α → List Byte) : Payload α → Option (Link × List Byte)
  | .fields a => some (l, frameBytes r tag (enc a))
  | .badLength => none

/-- No fields. -/
def encUnit (_ : Unit) : List Byte := []

/-- A key's bytes. -/
def encKey (k : List (BitVec 24)) : List Byte := Machine.listField (fun (p : BitVec 24) => Machine.be 3 p.toNat) k

/-- A dictionary entry's bytes. -/
def encEntry (e : RawEntry) : List Byte := encKey e.key ++ Machine.textField e.text ++ [e.flags]

/-- A starting point's bytes. -/
def encStart : LineStart → List Byte
  | .serial n => 0#8 :: Machine.be 4 n
  | .pageLine p n => 1#8 :: (Machine.be 2 p ++ Machine.be 1 n)

/-- The bytes of Set Translation Parameters. -/
def encParams (a : ParamArgs) : List Byte :=
  Machine.optField (Machine.be 2) a.resolution ++ Machine.optField (Machine.be 1) a.width ++ Machine.optField (Machine.be 1) a.pageLen
    ++ Machine.optField (Machine.be 1) a.settle ++ Machine.optField (Machine.be 2) a.interval
    ++ Machine.optField (Machine.be 1) a.deglitch ++ Machine.optField (Machine.be 2) a.repPresence
    ++ Machine.optField (Machine.be 2) a.benchPresence

/-- The link and the bytes of a request (R216, R217); the events, and a payload of wrong length, have no encoding. -/
def encodeRequest : Instr → Option (Link × List Byte)
  | .getStatus l t p => encodeWith l .getStatus t encUnit p
  | .readAttention l t p => encodeWith l .readAttention t encUnit p
  | .readLines l t p => encodeWith l .readLines t (fun a => encStart a.start ++ Machine.be 1 a.count) p
  | .setMark l t p =>
    encodeWith l .setMark t (fun a => Machine.be 4 a.serial ++ Machine.be 1 a.kind ++ Machine.optField Machine.textField a.label) p
  | .removeMark l t p => encodeWith l .removeMark t (Machine.be 1) p
  | .listMarks l t p =>
    encodeWith l .listMarks t (fun a => Machine.be 1 a.filter ++ Machine.be 4 a.serial ++ Machine.be 1 a.id) p
  | .readFeedHealth l t p => encodeWith l .readFeedHealth t encUnit p
  | .setTranslationParameters l t p => encodeWith l .setTranslationParameters t encParams p
  | .setKeyConditioning l t p =>
    encodeWith l .setKeyConditioning t (fun a =>
      Machine.be 1 a.key ++ Machine.beSigned 2 a.offset ++ Machine.be 1 a.gain ++ Machine.be 2 a.press ++ Machine.be 2 a.light) p
  | .setChordTiming l t p =>
    encodeWith l .setChordTiming t (fun a =>
      Machine.be 1 a.pressCount ++ Machine.be 1 a.releaseCount ++ Machine.be 1 a.hysteresis ++ Machine.be 2 a.holdLimit
        ++ Machine.be 2 a.scanInterval) p
  | .zeroKeys l t p => encodeWith l .zeroKeys t encUnit p
  | .readKeyDepths l t p => encodeWith l .readKeyDepths t encUnit p
  | .beginMainLoad l t p => encodeWith l .beginMainLoad t encUnit p
  | .loadEntries l t p => encodeWith l .loadEntries t (Machine.listField encEntry) p
  | .endMainLoad l t p => encodeWith l .endMainLoad t encUnit p
  | .openGroup l t p => encodeWith l .openGroup t encUnit p
  | .stageDefine l t p => encodeWith l .stageDefine t encEntry p
  | .stageRemove l t p => encodeWith l .stageRemove t encKey p
  | .commitGroup l t p => encodeWith l .commitGroup t encUnit p
  | .abandonGroup l t p => encodeWith l .abandonGroup t encUnit p
  | .clearJobTier l t p => encodeWith l .clearJobTier t encUnit p
  | .lookUp l t p => encodeWith l .lookUp t encKey p
  | .openSession l t p => encodeWith l .openSession t encUnit p
  | .recess l t p => encodeWith l .recess t encUnit p
  | .resume l t p => encodeWith l .resume t encUnit p
  | .closeSession l t p => encodeWith l .closeSession t encUnit p
  | .resetPart l t p => encodeWith l .resetPart t encUnit p
  | .readJournalBlock l t p => encodeWith l .readJournalBlock t (Machine.be 4) p
  | .releaseJournalBlock l t p => encodeWith l .releaseJournalBlock t (Machine.be 4) p
  | .closeJournalBlock l t p => encodeWith l .closeJournalBlock t encUnit p
  | .journalSummary l t p => encodeWith l .journalSummary t encUnit p
  | .editLine l t p => encodeWith l .editLine t (fun a => Machine.be 4 a.serial ++ Machine.textField a.text) p
  | .setFeed l t p =>
    encodeWith l .setFeed t (fun a =>
      Machine.be 1 a.feed ++ Machine.be 1 a.audience ++ Machine.be 1 a.rate ++ Machine.be 2 a.backfill ++ Machine.be 2 a.idle
        ++ Machine.be 2 a.stall) p
  | .enableFeed l t p => encodeWith l .enableFeed t (Machine.be 1) p
  | .disableFeed l t p => encodeWith l .disableFeed t (Machine.be 1) p
  | .testFeed l t p => encodeWith l .testFeed t (fun a => Machine.be 1 a.feed ++ Machine.be 1 a.count) p
  | .setClass l t p => encodeWith l .setClass t (Machine.be 1) p
  | .holdFeeds l t p => encodeWith l .holdFeeds t (fun b => [b]) p
  | .releaseFeeds l t p => encodeWith l .releaseFeeds t (fun b => [b]) p
  | .powerOn => none
  | .rstnAssert => none
  | .rstnRelease => none
  | .resetPartTimeout => none
  | .recoverySlotRead _ => none
  | .recoveryComplete => none
  | .keySample _ => none
  | .holdTimerExpiry => none
  | .zeroingComplete => none
  | .blockIntervalExpiry => none
  | .blockWriteStart => none
  | .reporterTransferStart => none
  | .blockWriteComplete _ => none
  | .blockReadComplete _ => none
  | .headerClearComplete _ => none
  | .buildComplete => none
  | .strokeHandover => none
  | .resolutionTimerExpiry => none
  | .tierChangeNotice => none
  | .sbarChange _ => none
  | .deglitchExpiry => none
  | .fnrdyChange _ _ => none
  | .fgate3Change _ => none
  | .frameComplete _ => none
  | .idleTimerExpiry _ => none
  | .stallTimerExpiry _ => none
  | .presenceTimerExpiry _ => none
  | .fetch _ _ => none
  | .frameError _ _ => none
  | .frameDiscarded _ _ => none
  | .unknownRequest _ _ _ => none

end Sys2Proof
end

