-- ==== Sys2Proof/Machine/Feeds.lean ====
section
/-! DEFINITION. The commands of the Feed Controller: the pins FnRDY and FGATE3 (R173, R175), a frame's end (R162, R179), the idle and stall
timers (R168, R172), and the feed requests (R159 to R161, R174, R177, R183). -/

namespace Sys2Proof.Machine

/-! ## Receiver ready -/

/-- The level of a feed's FnRDY set. -/
def setRdy (f : Fin 4) (high : Bool) (s : State) : State :=
  { s with pins := { s.pins with rdy := s.pins.rdy.set f high } }

/-- A feed's context at an assertion of FnRDY: the stall timer stops, and an enabled feed has seen its receiver (R172, R173). -/
def Feed.seeReady (c : Feed) : Feed := { c with stallTimer := none, seen := c.seen || c.state.enabled }

/-- FnRDY is asserted: a STALLED feed becomes LIVE or HELD, the health code is formed, and the feed chooses (R163, R173; log entry 15). -/
def rdyAsserted (f : Fin 4) (s : State) : State :=
  let s1 := setFeedCtx f (feed s f).seeReady s
  choose f (refreshHealth f (if (feed s f).state = .stalled then enterByHold f s1 else s1))

/-- FnRDY takes a level; a deassertion starts nothing (R173). -/
def rdyChanged (f : Fin 4) (high : Bool) (s : State) : State :=
  if s.pins.rdy.get f = high then s
  else if high then rdyAsserted f (setRdy f high s) else setRdy f high s

/-- FNRDY_CHANGE (R173). -/
def execFnrdyChange (f : Fin 4) (high : Bool) (s : State) : Host.Outcome State Fault Refusal := .next (rdyChanged f high s)

/-! ## The gate -/

/-- The state with F3's gate set. -/
def setGate (active : Bool) (s : State) : State := { s with feeds := { s.feeds with gate := active } }

/-- FGATE3 takes a level: the gate is active while it is low, FEED_GATE is posted when it goes low, and F3 follows (R175). While RSTN is held
the level is followed at its release (R185). -/
def gateChanged (high : Bool) (s : State) : State :=
  if s.pins.fgate3 = high then s
  else
    let s1 := { s with pins := { s.pins with fgate3 := high } }
    if s.pins.rstnHeld then s1
    else
      let s2 := setGate (!high) s1
      holdChanged 3 (if high then s2 else postBoth .feedGate s2)

/-- FGATE3_CHANGE (R175). -/
def execFgate3Change (high : Bool) (s : State) : Host.Outcome State Fault Refusal := .next (gateChanged high s)

/-! ## The end of a frame -/

/-- The outcome a test record holds is RUNNING. -/
def testRuns (c : Feed) : Bool :=
  match c.test with
  | some t => t.outcome = .running
  | none => false

/-- Every TEST frame asked for has been started. -/
def testSpent (c : Feed) : Bool :=
  match c.test with
  | some t => t.asked ≤ t.sent
  | none => true

/-- The frame in flight completes: LIVE and HELD restart the idle timer and choose, STOPPING ends, TEST goes on or ends (R161, R162, R163,
R179). A test whose last frame was in flight when Disable Feed made the feed STOPPING ends STOPPED, not COMPLETE (log entry 44). With no frame in
flight nothing occurs. -/
def frameDone (f : Fin 4) (s : State) : State :=
  let c := feed s f
  if c.flight = none then s
  else
    let s1 := setFeedCtx f { c with flight := none } s
    match c.state with
    | .live => choose f (setFeedCtx f { c with flight := none, idleTimer := some (s.now + c.idleInterval), idleDue := false } s)
    | .held => choose f (setFeedCtx f { c with flight := none, idleTimer := some (s.now + c.idleInterval), idleDue := false } s)
    | .stopping => if testRuns c then endTest f .stopped s1 else becomeOff f s1
    | .test => if testSpent c then endTest f .complete s1 else choose f s1
    | .off => s1
    | .stalled => s1

/-- FRAME_COMPLETE (R162). -/
def execFrameComplete (f : Fin 4) (s : State) : Host.Outcome State Fault Refusal := .next (frameDone f s)

/-! ## The timers -/

/-- The idle timer expires: an IDLE frame is due, and the feed chooses (R163, R168, R176); the expiry of a timer that is stopped or not yet
due does not occur. -/
def idleExpired (f : Fin 4) (s : State) : State :=
  let c := feed s f
  if Timer.due c.idleTimer s.now then choose f (setFeedCtx f { c with idleTimer := none, idleDue := true } s) else s

/-- IDLE_TIMER_EXPIRY (R168). -/
def execIdleTimerExpiry (f : Fin 4) (s : State) : Host.Outcome State Fault Refusal := .next (idleExpired f s)

/-- The stall timer expires: LIVE and HELD become STALLED, a test ends STALLED (R172, R179). -/
def stallExpired (f : Fin 4) (s : State) : State :=
  let c := feed s f
  if Timer.due c.stallTimer s.now then
    match c.state with
    | .live => refreshHealth f (setFeedCtx f { c with state := .stalled, stallTimer := none, idleTimer := none } s)
    | .held => refreshHealth f (setFeedCtx f { c with state := .stalled, stallTimer := none, idleTimer := none } s)
    | .test => endTest f .stalled s
    | _ => s
  else s

/-- STALL_TIMER_EXPIRY (R172). -/
def execStallTimerExpiry (f : Fin 4) (s : State) : Host.Outcome State Fault Refusal := .next (stallExpired f s)

/-! ## Set Feed -/

/-- The clamp list of Set Feed: feed number, backfill, idle interval, stall time (R159, R206). -/
def feedClamps (a : SetFeedArgs) : List Bool :=
  [false, (clampField 1 256 a.backfill).2, (clampField 250 5000 a.idle).2, (clampField 500 10000 a.stall).2]

/-- A context with the five values of a Set Feed written, clamped (R159). -/
def Feed.configured (c : Feed) (audience : Audience) (rate : Rate) (a : SetFeedArgs) : Feed :=
  { c with
    audience := audience, rate := rate
    backfill := clampTo 1 256 a.backfill, idleInterval := clampTo 250 5000 a.idle, stallTime := clampTo 500 10000 a.stall }

/-- The five configured values of a context, as responses carry them. -/
def configField (c : Feed) : List Byte :=
  be 1 c.audience.code ++ be 1 c.rate.code ++ be 2 c.backfill ++ be 2 c.idleInterval ++ be 2 c.stallTime

/-- Set Feed at the Feed Controller (R159). -/
def setFeed (a : SetFeedArgs) (s : State) : Reply :=
  match feedOf a.feed, Audience.ofCode a.audience, Rate.ofCode a.rate with
  | some f, some au, some r =>
    if (feed s f).state ≠ .off then refuse .busy s
    else
      let c := (feed s f).configured au r a
      .done .ok (configField c ++ clampList (feedClamps a)) (setFeedCtx f c s)
  | _, _, _ => refuse .range s

/-- SET_FEED (R159). -/
def execSetFeed (l : Link) (tag : Byte) (p : Payload SetFeedArgs) (s : State) : Host.Outcome State Fault Refusal :=
  .next (serve l tag .setFeed p setFeed s)

/-! ## Enable Feed -/

/-- The oldest unsettled serial: the lowest of an OPEN or CLOSED line, or the newest serial plus 1 (R160). -/
def oldestUnsettled (ls : LineStore) : Nat :=
  match ls.records.find? (fun l => l.state = .opn || l.state = .closed) with
  | some l => l.serial
  | none => ls.counter + 1

/-- The low water of a feed enabled with a backfill (R160). -/
def enableLow (backfill : Nat) (ls : LineStore) : Nat :=
  Nat.max (Nat.min (ls.counter + 1 - backfill) (oldestUnsettled ls)) (oldestHeld ls)

/-- A feed enabled, before its first choice (R160). -/
def enabled (f : Fin 4) (s : State) : State :=
  let c := feed s f
  refreshHealth f (setFeedCtx f { c with
    lowWater := enableLow c.backfill s.lines
    announced := 0, withheld := false, outOfStep := false
    seen := s.pins.rdy.get f
    state := if holdActive s f then .held else .live
    idleTimer := some (s.now + c.idleInterval), idleDue := false, stallTimer := none } s)

/-- Enable Feed at the Feed Controller (R160). -/
def enableFeed (n : Nat) (s : State) : Reply :=
  match feedOf n with
  | none => refuse .range s
  | some f =>
    match (feed s f).state with
    | .off =>
      let s1 := enabled f s
      .done .ok (be 4 (feed s1 f).lowWater ++ be 1 (feed s1 f).state.code) (choose f s1)
    | .stopping => refuse .busy s
    | .test => refuse .busy s
    | _ => refuse .already s

/-- ENABLE_FEED (R160). -/
def execEnableFeed (l : Link) (tag : Byte) (p : Payload Nat) (s : State) : Host.Outcome State Fault Refusal :=
  .next (serve l tag .enableFeed p enableFeed s)

/-! ## Disable Feed -/

/-- A feed becomes STOPPING: it starts no further frame and its timers stop (R161, R168, R172, R179). -/
def becomeStopping (f : Fin 4) (s : State) : State :=
  refreshHealth f (setFeedCtx f { feed s f with state := .stopping, idleTimer := none, idleDue := false, stallTimer := none } s)

/-- What a Disable Feed makes of a feed that is neither OFF nor STOPPING (R161, R179). -/
def disabled (f : Fin 4) (s : State) : State :=
  if (feed s f).flight.isSome then becomeStopping f s
  else if (feed s f).state = .test then endTest f .stopped s
  else becomeOff f s

/-- Disable Feed at the Feed Controller (R161). -/
def disableFeed (n : Nat) (s : State) : Reply :=
  match feedOf n with
  | none => refuse .range s
  | some f =>
    if (feed s f).state = .off ∨ (feed s f).state = .stopping then refuse .already s
    else .done .ok (be 1 (feed (disabled f s) f).state.code) (disabled f s)

/-- DISABLE_FEED (R161). -/
def execDisableFeed (l : Link) (tag : Byte) (p : Payload Nat) (s : State) : Host.Outcome State Fault Refusal :=
  .next (serve l tag .disableFeed p disableFeed s)

/-! ## Test Feed -/

/-- A test begins (R177). -/
def beginTest (f : Fin 4) (n : Nat) (s : State) : State :=
  refreshHealth f (setFeedCtx f { feed s f with
    state := .test, test := some { asked := n, sent := 0, outcome := .running, seq := testSeed } } s)

/-- Test Feed at the Feed Controller (R177). -/
def testFeed (a : TestFeedArgs) (s : State) : Reply :=
  match feedOf a.feed with
  | none => refuse .range s
  | some f =>
    if (feed s f).state ≠ .off then refuse .busy s
    else
      .done .ok (clampList [false, (clampField 1 255 a.count).2]) (choose f (beginTest f (clampTo 1 255 a.count) s))

/-- TEST_FEED (R177). -/
def execTestFeed (l : Link) (tag : Byte) (p : Payload TestFeedArgs) (s : State) : Host.Outcome State Fault Refusal :=
  .next (serve l tag .testFeed p testFeed s)

/-! ## Hold Feeds and Release Feeds -/

/-- One feed's bench hold set or cleared; where that changes it, the feed follows (R174). -/
def setHold (on : Bool) (s : State) (f : Fin 4) : State :=
  if (feed s f).benchHold = on then s else holdChanged f (setFeedCtx f { feed s f with benchHold := on } s)

/-- The response of Hold Feeds and Release Feeds: bench hold and state of each feed, the four feeds without a count byte (R174; log entries 33
and 51). -/
def holdPayload (s : State) : List Byte :=
  s.feeds.ctx.toList.flatMap (fun c => flagByte c.benchHold :: be 1 c.state.code)

/-- Hold Feeds or Release Feeds at the Feed Controller (R174). -/
def holdOrRelease (on : Bool) (set : Byte) (s : State) : Reply :=
  if badFeedSet set then refuse .range s
  else if (feedsOf set).all (fun f => (feed s f).benchHold = on) then .done .already (holdPayload s) s
  else .done .ok (holdPayload ((feedsOf set).foldl (setHold on) s)) ((feedsOf set).foldl (setHold on) s)

/-- HOLD_FEEDS (R174). -/
def execHoldFeeds (l : Link) (tag : Byte) (p : Payload Byte) (s : State) : Host.Outcome State Fault Refusal :=
  .next (serve l tag .holdFeeds p (holdOrRelease true) s)

/-- RELEASE_FEEDS (R174). -/
def execReleaseFeeds (l : Link) (tag : Byte) (p : Payload Byte) (s : State) : Host.Outcome State Fault Refusal :=
  .next (serve l tag .releaseFeeds p (holdOrRelease false) s)

/-! ## Read Feed Health -/

/-- A test record as Read Feed Health reports it: frames asked for and sent, outcome, and the position in the test sequence (R157, R177 to
R179, R183). The position is told by the nine bits of the sequence that come next, the earliest in bit 0 (log entry 53). -/
def testField (t : TestRec) : List Byte := be 1 t.asked ++ be 1 t.sent ++ be 1 t.outcome.code ++ be 2 t.seq.toNat

/-- A frame in flight as Read Feed Health reports it: its kind and, for a frame that names a line, the serial (R183; log entry 42). -/
def flightField (fr : FeedFrame) : List Byte := be 1 fr.kind ++ optField (be 4) fr.serial

/-- One feed's part of Read Feed Health, asked on link `l` (R183); a frame in flight and a test record stand under one presence byte each (log
entry 57). -/
def healthField (l : Link) (s : State) (f : Fin 4) : List Byte :=
  let c := feed s f
  be 1 c.state.code ++ configField c
    ++ [flagByte c.benchHold] ++ (if f = 3 then [flagByte s.feeds.gate] else [])
    ++ [flagByte (s.pins.rdy.get f), flagByte c.seen]
    ++ be 4 c.lowWater ++ be 4 c.announced ++ [flagByte c.withheld, flagByte c.outOfStep]
    ++ listField (be 4) c.edits
    ++ optField flightField c.flight
    ++ be 1 c.health.code ++ be 1 ((s.link l).latched.get f).code
    ++ optField testField c.test

/-- Read Feed Health at the Feed Controller (R183), the four feeds without a count byte (log entry 51). -/
def readHealth (l : Link) (_ : Unit) (s : State) : Reply := .done .ok (allFeeds.flatMap (healthField l s)) s

/-- READ_FEED_HEALTH (R183). -/
def execReadFeedHealth (l : Link) (tag : Byte) (p : Payload Unit) (s : State) : Host.Outcome State Fault Refusal :=
  .next (serve l tag .readFeedHealth p (readHealth l) s)

end Sys2Proof.Machine
end

