-- ==== Sys2Proof/Machine/Keys.lean ====
section
/-! DEFINITION. The commands of the Key Sensing Unit and the Chord Former: a sample (R1), the hold timer (R18), the end of a zeroing
(R13), and the requests Set Key Conditioning, Set Chord Timing, Zero Keys and Read Key Depths (R4, R5, R6, R12). -/

namespace Sys2Proof.Machine

/-! ## A sample -/

/-- The scan's place after the sample of key `i` (R1). -/
def nextKey (i : Nat) : Nat := if i + 1 < nKeys then i + 1 else 0

/-- The sample of the key at the scan's place: the depth conditioned, the key's machine stepped, the zeroing's sums, the scan moved on
(R1, R2, R7, R8, R9, R12). -/
def stepSample (sample : Nat) (s : State) : State × KeyMove :=
  let i := s.ksu.scanPos
  let k := keyAt s i
  let r := k.step s.ksu.pressCount s.ksu.releaseCount s.ksu.hysteresis (conditionDepth k.cond.offset k.cond.gain sample)
  ({ s with ksu := { s.ksu with
      keys := s.ksu.keys.set i r.1
      scanPos := nextKey i
      zeroing := s.ksu.zeroing.map (fun z => z.collect i sample) } }, r.2)

/-- A sample taken whole: the key's step, its report to the Chord Former, and the light touch (R1, R11, R15, R16, R17). -/
def takeSample (sample : Nat) (s : State) : State :=
  let i := s.ksu.scanPos
  let before := keyAt s i
  let r := stepSample sample s
  lightTouch i before (reportMove i r.2 r.1)

/-- KEY_SAMPLE (R1): the sensor at the scan's place gives the sample. Nothing is sampled while RSTN is held (log entry 7). -/
def execKeySample (raw : BitVec 12) (s : State) : Host.Outcome State Fault Refusal :=
  .next (if s.pins.rstnHeld then s else takeSample raw.toNat s)

/-! ## The hold timer -/

/-- A key of the press set that is DOWN or RELEASING becomes STUCK and loses its light-touched mark (R9, R18). -/
def stickKey (press : KeySet) (i : Nat) (k : Key) : Key :=
  if press.getLsbD i && k.isHeld then { k with st := .stuck, count := 0, touched := false } else k

/-- The keys of a set that are not DOWN or RELEASING. -/
def notHeld (press : KeySet) : Nat → List Key → KeySet
  | _, [] => press
  | i, k :: ks => (if k.isHeld then ~~~BitVec.twoPow 23 i else BitVec.allOnes 23) &&& notHeld press (i + 1) ks

/-- The hold timer of the open chord expires (R18): held keys become STUCK, KEY_STUCK is posted, the chord closes with both flags. -/
def holdExpiry (s : State) : State :=
  match s.chords.chord with
  | none => s
  | some c =>
    if Timer.due c.hold s.now then
      let c1 := { c with press := notHeld c.press 0 s.ksu.keys, held := true, stuckExcluded := true }
      closeChord c1 (post .reporter .keyStuck (setChord (some c1) (mapKeys (stickKey c.press) s)))
    else s

/-- HOLD_TIMER_EXPIRY (R18). -/
def execHoldTimerExpiry (s : State) : Host.Outcome State Fault Refusal := .next (holdExpiry s)

/-! ## Zero Keys -/

/-- The zeroing settles each key in index order, the new offsets are written together, and ZERO_DONE is posted (R13). -/
def settleZeroing (z : Zeroing) (s : State) : State :=
  let outcome := fun (i : Nat) (k : Key) => zeroKey k.cond.offset (z.accs.getD i ZeroAcc.zero)
  post .reporter .zeroDone { s with ksu := { s.ksu with
    keys := s.ksu.keys.mapIdx (fun i k => { k with cond := { k.cond with offset := (outcome i k).1 } })
    zeroing := none
    zeroResult := .complete (s.ksu.keys.mapIdx (fun i k => (outcome i k).2)) } }

/-- The end of a zeroing: it occurs once the last key has its 64th sample (R13). -/
def zeroingDone (s : State) : State :=
  match s.ksu.zeroing with
  | some z => if z.finished then settleZeroing z s else s
  | none => s

/-- ZEROING_COMPLETE (R13). -/
def execZeroingComplete (s : State) : Host.Outcome State Fault Refusal := .next (zeroingDone s)

/-- The state and BUSY checks of the key requests: taken in STANDBY and RECESS, BUSY while a zeroing runs (R4, R5, R12). -/
def keyChecks (s : State) : Option Status :=
  if s.session.st = .standby ∨ s.session.st = .recess then
    if s.ksu.zeroing.isSome then some .busy else none
  else some .wrongState

/-- Zero Keys at the KSU (R12). -/
def zeroKeys (_ : Unit) (s : State) : Reply :=
  match keyChecks s with
  | some st => refuse st s
  | none =>
    .done .ok [] { s with ksu := { s.ksu with
      zeroing := some { begun := false, accs := List.replicate nKeys ZeroAcc.zero } } }

/-- ZERO_KEYS (R12). -/
def execZeroKeys (l : Link) (tag : Byte) (p : Payload Unit) (s : State) : Host.Outcome State Fault Refusal :=
  .next (serve l tag .zeroKeys p zeroKeys s)

/-! ## The settings -/

/-- The conditioning record a request writes, clamped (R4). -/
def clampCond (a : KeyCondArgs) : KeyCond :=
  { offset := clampInt (-512) 511 a.offset
    gain := clampTo 16 127 a.gain
    press := clampTo 32 1000 a.press
    light := clampTo 0 (clampTo 32 1000 a.press - 1) a.light }

/-- The clamp list of Set Key Conditioning: key index, offset, gain, press threshold, light threshold (R4, R206). -/
def condClamps (a : KeyCondArgs) : List Bool :=
  let c := clampCond a
  [false, c.offset ≠ a.offset, c.gain ≠ a.gain, c.press ≠ a.press, c.light ≠ a.light]

/-- Set Key Conditioning at the KSU (R4): key index 255 is ALL. -/
def setConditioning (a : KeyCondArgs) (s : State) : Reply :=
  if nKeys ≤ a.key ∧ a.key ≠ 255 then refuse .range s
  else
    match keyChecks s with
    | some st => refuse st s
    | none =>
      .done .ok (clampList (condClamps a))
        (mapKeys (fun i k => if a.key = 255 ∨ i = a.key then { k with cond := clampCond a } else k) s)

/-- SET_KEY_CONDITIONING (R4). -/
def execSetKeyConditioning (l : Link) (tag : Byte) (p : Payload KeyCondArgs) (s : State) : Host.Outcome State Fault Refusal :=
  .next (serve l tag .setKeyConditioning p setConditioning s)

/-- The clamp list of Set Chord Timing (R5). -/
def timingClamps (a : ChordTimingArgs) : List Bool :=
  [(clampField 1 4 a.pressCount).2, (clampField 1 4 a.releaseCount).2, (clampField 4 255 a.hysteresis).2,
   (clampField 250 5000 a.holdLimit).2, (clampField 250 2000 a.scanInterval).2]

/-- Set Chord Timing at the KSU (R5). -/
def setTiming (a : ChordTimingArgs) (s : State) : Reply :=
  match keyChecks s with
  | some st => refuse st s
  | none =>
    .done .ok (clampList (timingClamps a)) { s with ksu := { s.ksu with
      pressCount := clampTo 1 4 a.pressCount
      releaseCount := clampTo 1 4 a.releaseCount
      hysteresis := clampTo 4 255 a.hysteresis
      holdLimit := clampTo 250 5000 a.holdLimit
      scanInterval := clampTo 250 2000 a.scanInterval } }

/-- SET_CHORD_TIMING (R5). -/
def execSetChordTiming (l : Link) (tag : Byte) (p : Payload ChordTimingArgs) (s : State) : Host.Outcome State Fault Refusal :=
  .next (serve l tag .setChordTiming p setTiming s)

/-! ## Read Key Depths -/

/-- The zeroing result: NONE 0, COMPLETE 1, ABANDONED 2, and the per-key list (R13, R14, R217). NONE has no per-key list (R13), and no rule
says how a list that is not there is told: it is sent as ABANDONED's empty one, a count byte of 0 (log entry 49). -/
def zeroField : ZeroResult → List Byte
  | .none => [0#8] ++ listField (fun (o : ZeroOutcome) => be 1 o.code) []
  | .complete ks => [1#8] ++ listField (fun (o : ZeroOutcome) => be 1 o.code) ks
  | .abandoned => [2#8] ++ listField (fun (o : ZeroOutcome) => be 1 o.code) []

/-- The Read Key Depths response: depth and state of each key, the ignore marks, the zeroing result (R6). R217's flag sets hold up to eight
flags, so the 23 ignore marks are sent as 23 bytes, one for each key (log entry 50); the 23 keys are a repetition of fixed number, sent without
a count byte (log entry 51). -/
def depthsPayload (s : State) : List Byte :=
  s.ksu.keys.flatMap (fun k => be 2 k.depth ++ be 1 k.st.code)
    ++ s.ksu.keys.map (fun k => flagByte k.ignore)
    ++ zeroField s.ksu.zeroResult

/-- Read Key Depths at the KSU (R6). -/
def readDepths (_ : Unit) (s : State) : Reply := .done .ok (depthsPayload s) s

/-- READ_KEY_DEPTHS (R6). -/
def execReadKeyDepths (l : Link) (tag : Byte) (p : Payload Unit) (s : State) : Host.Outcome State Fault Refusal :=
  .next (serve l tag .readKeyDepths p readDepths s)

end Sys2Proof.Machine
end

