-- ==== Sys2Proof/Machine/MarkOps.lean ====
section
/-! DEFINITION. What the Mark Table does on notices of the Line Store: marks flagged REVISED (R193) and DETACHED (R194), with the notices of
R195. -/

namespace Sys2Proof.Machine

/-- The state with the mark records replaced. -/
def setMarks (ms : List Mark) (s : State) : State := { s with marks := { s.marks with records := ms } }

/-- MARK_CHANGED posted to the link other than the owner's, for each owner of a record that satisfies `p` (R195). -/
def tellOwners (p : Mark → Bool) (ms : List Mark) (s : State) : State :=
  let s1 := if ms.any (fun m => p m && m.owner = .reporter) then post .bench .markChanged s else s
  if ms.any (fun m => p m && m.owner = .bench) then post .reporter .markChanged s1 else s1

/-- The record becomes REVISED by an edit of line `serial` (R193). -/
def becomesRevised (serial : Nat) (m : Mark) : Bool := m.serial = serial && !m.detached && !m.revised

/-- The edit notice of a line: its ATTACHED marks are flagged REVISED (R193). -/
def reviseMarks (serial : Nat) (s : State) : State :=
  tellOwners (becomesRevised serial) s.marks.records
    (setMarks (s.marks.records.map (fun m => if becomesRevised serial m then { m with revised := true } else m)) s)

/-- The record becomes DETACHED by the reclaim of line `serial` (R194). -/
def becomesDetached (serial : Nat) (m : Mark) : Bool := m.serial = serial && !m.detached

/-- The reclaim notice of a line: its ATTACHED marks become DETACHED (R194). -/
def detachMarks (serial : Nat) (s : State) : State :=
  tellOwners (becomesDetached serial) s.marks.records
    (setMarks (s.marks.records.map (fun m => if becomesDetached serial m then { m with detached := true } else m)) s)

end Sys2Proof.Machine
end

