-- ==== Sys2Proof/Machine/LineOps.lean ====
section
/-! DEFINITION. The Line Builder (chapter 6): opening and closing a line, settling, reclaim, the laying of a unit's text (R122 to R130, R135)
and its retraction (R131 to R134). -/

namespace Sys2Proof.Machine

/-! ## Lines -/

/-- The line is OPEN or CLOSED. -/
def Line.unsettled (l : Line) : Bool := l.state = .opn || l.state = .closed

/-- The record of the open line. -/
def openRecord (s : State) : Option Line := s.lines.openLine.bind (findLine s.lines.records)

/-- The length of the open line's text. -/
def openLength (s : State) : Nat := ((openRecord s).map (fun l => l.text.length)).getD 0

/-- The state with the open line set. -/
def setOpenLine (o : Option Nat) (s : State) : State := { s with lines := { s.lines with openLine := o } }

/-- A line becomes SETTLED: its run list is dropped (R129). -/
def Line.settled (l : Line) : Line := { l with state := .settled, runs := [] }

/-- The lines of the given serials become SETTLED (R129). -/
def settleLines (serials : List Nat) (s : State) : State :=
  setRecords (s.lines.records.map (fun l => if l.serial ∈ serials then l.settled else l)) s

/-- The serials of the CLOSED lines, lowest first. -/
def closedSerials (s : State) : List Nat := (s.lines.records.filter (fun l => l.state = .closed)).map (·.serial)

/-- The settle check: while more than S lines are CLOSED, the lowest becomes SETTLED (R129). The settled serials are the notices to the
Translator. -/
def settleCheck (s : State) : State × List Nat :=
  let c := closedSerials s
  let out := c.take (c.length - s.lines.settle)
  (settleLines out s, out)

/-- A line closes: OPEN becomes CLOSED (R128). -/
def Line.close (l : Line) : Line := if l.state = .opn then { l with state := .closed } else l

/-- The open line closes, and the settle check runs (R128); with no open line nothing changes. -/
def closeOpen (s : State) : State × List Nat :=
  match s.lines.openLine with
  | none => (s, [])
  | some n => settleCheck (setOpenLine none (setRecords (updateLine n Line.close s.lines.records) s))

/-- Every line is settled: the open line closes FORCED, then every CLOSED line becomes SETTLED in serial order (R130). -/
def settleAll (s : State) : State × List Nat :=
  let r := closeOpen s
  let c := closedSerials r.1
  (settleLines c r.1, r.2 ++ c)

/-! ## Reclaim and opening -/

/-- The lowest SETTLED or WITHDRAWN record is reclaimed: the feeds and the Mark Table are told, and the record leaves the store
(R135). -/
def reclaim (s : State) : State :=
  match s.lines.records.find? (fun l => !l.unsettled) with
  | none => s
  | some l =>
    liftLowWaters (detachMarks l.serial (reclaimFeeds s.lines.records l
      (setRecords (s.lines.records.filter (fun x => x.serial ≠ l.serial)) s)))

/-- The page and line a line that opens takes (R126). -/
def takeNumber (ls : LineStore) : Nat × Nat :=
  if ls.pageLen < ls.nextLine then (succHold max16 ls.nextPage, 1) else (ls.nextPage, ls.nextLine)

/-- The next number after a line has taken a number (R126). -/
def numberAfter (pageLen : Nat) (n : Nat × Nat) : Nat × Nat :=
  if pageLen ≤ n.2 then (succHold max16 n.1, 1) else (n.1, n.2 + 1)

/-- A new record, OPEN and empty (R125). -/
def newLine (serial : Nat) (n : Nat × Nat) (cls : Cls) : Line :=
  { serial := serial, page := n.1, line := n.2, cls := cls, state := .opn, revision := 0, text := [], range := none
    edited := false, sent := Quad.const 0, withdrawSent := Quad.const false, runs := [] }

/-- A line is opened under the next serial and the next number, with a record reclaimed when none is free (R125). The caller has tested
that a serial is left. -/
def openNew (cls : Cls) (s : State) : State :=
  let s1 := if lineCapacity ≤ s.lines.records.length then reclaim s else s
  let n := takeNumber s1.lines
  let next := numberAfter s1.lines.pageLen n
  { s1 with lines := { s1.lines with
      records := s1.lines.records ++ [newLine (s1.lines.counter + 1) n cls]
      counter := s1.lines.counter + 1
      nextPage := next.1
      nextLine := next.2
      openLine := some (s1.lines.counter + 1) } }

/-! ## Laying a placed string -/

/-- A placement request of the Translator (R106). -/
structure PlaceReq where
  text  : List Byte
  sep   : Bool
  closeFirst : Bool
  cls   : Cls
  first : Nat
  last  : Nat
deriving DecidableEq, Repr

/-- A placement under way: the state, the place of its first character, the characters placed, the lines settled, how the open line was
opened, whether characters of this placement stand in it, and whether the serials ran out (R122 to R127). -/
structure Laying where
  s       : State
  first   : Option (Nat × Nat × Opening)
  placed  : Nat
  settled : List Nat
  opening : Opening
  inLine  : Bool
  stopped : Bool
deriving DecidableEq, Repr

/-- A line with characters appended; the first of one placement raise the revision and add a run (R127). -/
def Line.extend (l : Line) (cs : List Byte) (again : Bool) (first last : Nat) : Line :=
  { l with
    text := l.text ++ cs
    revision := if again then l.revision else succHold max16 l.revision
    range := some ((l.range.map Prod.fst).getD first, last)
    runs := if again then l.runs else l.runs ++ [{ column := l.text.length, first := first, last := last }] }

/-- Characters are appended to the open line (R127). -/
def layChars (r : PlaceReq) (cs : List Byte) (y : Laying) : Laying :=
  if cs = [] then y
  else
    match y.s.lines.openLine with
    | none => y
    | some n =>
      { y with
        s := setRecords (updateLine n (fun l => l.extend cs y.inLine r.first r.last) y.s.lines.records) y.s
        first := match y.first with
          | some p => some p
          | none => some (n, openLength y.s, y.opening)
        placed := y.placed + cs.length
        inLine := true }

/-- A line is opened for the placement, unless no serial is left (R125). The serial is tested before a record is reclaimed, so with no serial
left nothing is reclaimed (log entry 55). -/
def layOpen (r : PlaceReq) (o : Opening) (y : Laying) : Laying :=
  if max32 ≤ y.s.lines.counter then { y with stopped := true }
  else { y with s := openNew r.cls y.s, opening := o, inLine := false }

/-- The open line closes WRAP and a line is opened by WRAP (R123, R124). -/
def layWrap (r : PlaceReq) (y : Laying) : Laying :=
  let c := closeOpen y.s
  layOpen r .wrap { y with s := c.1, settled := y.settled ++ c.2 }

/-- A word is laid in the open line (R124); a word broken at the width goes on in the next line. -/
def layWord (r : PlaceReq) : Nat → List Byte → Laying → Laying
  | 0, _, y => y
  | n + 1, w, y =>
    if y.stopped then y
    else
      let c := openLength y.s
      if c + w.length ≤ y.s.lines.width then layChars r w y
      else if 0 < c then layWord r n w (layWrap r y)
      else layWord r n (w.drop y.s.lines.width) (layWrap r (layChars r (w.take y.s.lines.width) y))

/-- A token: a run of spaces, then a word (R123). -/
structure Token where
  spaces : Nat
  word   : List Byte
deriving DecidableEq, Repr

/-- The placed string cut into tokens; `n` spaces and the word `w` have been read (R123). -/
def tokensFrom : Nat → List Byte → List Byte → List Token
  | n, w, [] => if n = 0 ∧ w = [] then [] else [{ spaces := n, word := w }]
  | n, w, c :: cs =>
    if c = 0x20#8 then
      if w = [] then tokensFrom (n + 1) [] cs else { spaces := n, word := w } :: tokensFrom 1 [] cs
    else tokensFrom n (w ++ [c]) cs

/-- The tokens of a placed string (R123). -/
def tokens (cs : List Byte) : List Token := tokensFrom 0 [] cs

/-- Spaces. -/
def spaces (n : Nat) : List Byte := List.replicate n 0x20#8

/-- A token is laid in the open line (R123). -/
def layInLine (r : PlaceReq) (t : Token) (y : Laying) : Laying :=
  let c := openLength y.s
  let w := y.s.lines.width
  if c + t.spaces + t.word.length ≤ w then layChars r (spaces t.spaces ++ t.word) y
  else if t.word = [] then layChars r (spaces (min t.spaces (w - c))) y
  else if 0 < c then layWord r (t.word.length + 2) t.word (layWrap r y)
  else layWord r (t.word.length + 2) t.word (layChars r (spaces (min t.spaces w)) y)

/-- A token is laid; a line is opened FORCED when none is open (R123). -/
def layToken (r : PlaceReq) (y : Laying) (t : Token) : Laying :=
  if y.stopped then y
  else
    let y1 := if y.s.lines.openLine.isSome then y else layOpen r .forced y
    if y1.stopped then y1 else layInLine r t y1

/-- A placement's answer: the state, the placement, and the lines settled by it (R105, R127). -/
structure Placed where
  s         : State
  placement : Option Placement
  settled   : List Nat
deriving DecidableEq, Repr

/-- The open line closes FORCED when it is of another class than the unit (R122, step 2). -/
def closeOtherClass (cls : Cls) (s : State) : State × List Nat :=
  match openRecord s with
  | some l => if l.cls = cls then (s, []) else closeOpen s
  | none => (s, [])

/-- The placement a laying returns (R125, R127). -/
def Laying.placement (y : Laying) : Option Placement :=
  match y.first with
  | some (serial, column, o) => some { serial := serial, column := column, count := y.placed, opening := o }
  | none =>
    if y.stopped then none
    else y.s.lines.openLine.map (fun n => { serial := n, column := y.s.lines.width, count := 0, opening := .continued })

/-- A placement request with text is taken as one event (R122). -/
def place (r : PlaceReq) (s : State) : Placed :=
  let a := if r.closeFirst then closeOpen s else (s, [])
  let b := closeOtherClass r.cls a.1
  let string := if r.sep ∧ b.1.lines.openLine.isSome then 0x20#8 :: r.text else r.text
  let y := (tokens string).foldl (layToken r)
    { s := b.1, first := none, placed := 0, settled := a.2 ++ b.2, opening := .continued, inLine := false, stopped := false }
  { s := y.s, placement := y.placement, settled := y.settled }

/-- A request with empty text: it closes the open line FORCED when asked, and returns no placement (R106, R122). -/
def placeEmpty (close : Bool) (s : State) : Placed :=
  let a := if close then closeOpen s else (s, [])
  { s := a.1, placement := none, settled := a.2 }

/-! ## Retraction -/

/-- A line withdrawn (R133). -/
def Line.withdrawn (l : Line) : Line :=
  { l with state := .withdrawn, text := [], revision := succHold max16 l.revision, range := none, runs := [] }

/-- The OPEN and CLOSED lines whose serials satisfy `p` are withdrawn; the next number returns to the first of them; records no feed owes
leave the store (R133, R134). -/
def withdrawLines (p : Nat → Bool) (s : State) : State :=
  match s.lines.records.find? (fun l => p l.serial && l.unsettled) with
  | none => s
  | some l0 =>
    let rs := s.lines.records.map (fun l => if p l.serial && l.unsettled then l.withdrawn else l)
    removeDone { s with lines := { s.lines with
      records := rs
      nextPage := l0.page
      nextLine := l0.line
      openLine := s.lines.openLine.filter (fun n => !p n) } }

/-- A line cut to its first `c` characters and OPEN again (R131). -/
def Line.cut (l : Line) (c : Nat) : Line :=
  let runs := l.runs.filter (fun r => r.column < c)
  { l with
    text := l.text.take c
    revision := if c < l.text.length then succHold max16 l.revision else l.revision
    runs := runs
    range := match runs.head?, runs.getLast? with
      | some a, some b => some (a.first, b.last)
      | _, _ => none
    state := .opn }

/-- A CLOSED line becomes OPEN again (R132). -/
def Line.reopen (l : Line) : Line := if l.state = .closed then { l with state := .opn } else l

/-- A retraction into a line's column above 0 (R131). Settling is not undone (R129): only an OPEN or CLOSED line is cut. -/
def retractInside (p : Placement) (s : State) : State :=
  let s1 := withdrawLines (fun n => p.serial < n) s
  setOpenLine (some p.serial)
    (setRecords (updateLine p.serial (fun l => if l.unsettled then l.cut p.column else l) s1.lines.records) s1)

/-- A retraction of a unit that opened its line (R132). -/
def retractWhole (p : Placement) (s : State) : State :=
  let s1 := setOpenLine none (withdrawLines (fun n => p.serial ≤ n) s)
  match p.opening, below s1.lines.records p.serial with
  | .wrap, some l =>
    if l.state = .closed then
      setOpenLine (some l.serial) (setRecords (updateLine l.serial Line.reopen s1.lines.records) s1)
    else s1
  | _, _ => s1

/-- The newest unit's placement is taken back (R131, R132). -/
def retract (p : Placement) (s : State) : State :=
  if 0 < p.column then retractInside p s else retractWhole p s

end Sys2Proof.Machine
end

