-- ==== Sys2Proof/Machine/Lines.lean ====
section
/-! DEFINITION. The commands of the Line Store: Read Lines (R138) and Edit Line (R136, R137). -/

namespace Sys2Proof.Machine

/-! ## Read Lines -/

/-- A line record as Read Lines returns it (R119, R138). The four withdraw-sent flags are one flag set, bit n for feed Fn, after the four sent
revisions (R217; log entry 52); the two sequences of the stroke range stand under one presence byte (log entry 57). -/
def lineField (l : Line) : List Byte :=
  be 4 l.serial ++ be 2 l.page ++ be 1 l.line ++ be 1 l.cls.code ++ be 1 l.state.code ++ be 2 l.revision ++ textField l.text
    ++ optField (fun (r : Nat × Nat) => be 4 r.1 ++ be 4 r.2) l.range
    ++ [flagByte l.edited]
    ++ l.sent.toList.flatMap (be 2) ++ be 1 (flagBits l.withdrawSent.toList)

/-- The records from a serial on: the first is the one with that serial, or the lowest above it (R138). -/
def fromSerial (n : Nat) (rs : List Line) : List Line := rs.filter (fun l => n ≤ l.serial)

/-- The non-WITHDRAWN record of the lowest serial under a number (R138). -/
def underNumber (page line : Nat) (rs : List Line) : Option Line :=
  rs.find? (fun l => l.state ≠ .withdrawn && l.page = page && l.line = line)

/-- The records a starting point names; none where no record stands under its number (R138). -/
def linesFrom (rs : List Line) : LineStart → Option (List Line)
  | .serial n => some (fromSerial n rs)
  | .pageLine p n =>
    (underNumber (clampTo 1 max16 p) (clampTo 1 30 n) rs).map (fun l => fromSerial l.serial rs)

/-- The clamps of a Read Lines in request order: the starting point's numbers, then the count (R138, R206; log entry 17). -/
def readClamps (a : ReadLinesArgs) : List Bool :=
  (match a.start with
    | .serial _ => [false]
    | .pageLine p n => [(clampField 1 max16 p).2, (clampField 1 30 n).2])
    ++ [(clampField 1 readLimit a.count).2]

/-- The Read Lines response (R138). -/
def readLinesPayload (a : ReadLinesArgs) (ls : List Line) (st : LineStore) : List Byte :=
  clampList (readClamps a) ++ listField lineField (ls.take (clampTo 1 readLimit a.count))
    ++ be 4 (oldestHeld st) ++ be 4 st.counter

/-- Read Lines at the Line Store (R138). -/
def readLines (a : ReadLinesArgs) (s : State) : Reply :=
  match linesFrom s.lines.records a.start with
  | none => refuse .notFound s
  | some ls => .done .ok (readLinesPayload a ls s.lines) s

/-- READ_LINES (R138). -/
def execReadLines (l : Link) (tag : Byte) (p : Payload ReadLinesArgs) (s : State) : Host.Outcome State Fault Refusal :=
  .next (serve l tag .readLines p readLines s)

/-! ## Edit Line -/

/-- A line after an edit: text, revision and edited flag (R137, steps 1 and 2). -/
def Line.edit (l : Line) (text : List Byte) : Line :=
  { l with text := replaceText text, revision := succHold max16 l.revision, edited := true }

/-- The EDIT entry (R137, R219). -/
def editEntry (l : Line) (s : State) : Entry :=
  { kind := .edit, attrs := clsAttrs l.cls, seq := l.serial, time := s.session.clock
    fieldA := pageLine l.page l.line, fieldB := l.revision * 256 + l.text.length }

/-- Edit Line taken on record `l` (R137), with the feeds' choices after it (log entry 14). -/
def applyEdit (l : Line) (text : List Byte) (s : State) : State :=
  let e := l.edit text
  let s1 := reviseMarks l.serial (editNotice l.serial
    (setRecords (updateLine l.serial (fun x => x.edit text) s.lines.records) s))
  let s2 := if s.session.st.isOpen then append (editEntry e s1) s1 else s1
  chooseAll (post .bench .lineEdited s2)

/-- Edit Line at the Line Builder (R136, R137). -/
def editLine (a : EditLineArgs) (s : State) : Reply :=
  if s.session.st = .closing then refuse .wrongState s
  else
    match findLine s.lines.records a.serial with
    | none => refuse .notFound s
    | some l =>
      if l.state ≠ .settled then refuse .notSettled s
      else if s.lines.width < a.text.length then refuse .range s
      else .done .ok (be 2 (l.edit a.text).revision ++ be 1 (replacedCount a.text)) (applyEdit l a.text s)

/-- EDIT_LINE (R137). -/
def execEditLine (l : Link) (tag : Byte) (p : Payload EditLineArgs) (s : State) : Host.Outcome State Fault Refusal :=
  .next (serve l tag .editLine p editLine s)

end Sys2Proof.Machine
end

