-- ==== Sys2Proof/Machine/Marks.lean ====
section
/-! DEFINITION. The commands of the Mark Table: Set Mark (R188, R189), Remove Mark (R191) and List Marks (R192), with the entries of
R196 and the notices of R195. -/

namespace Sys2Proof.Machine

/-! ## The table -/

/-- The id counted after `n`: 255 is followed by 1 (R187). -/
def idAfter (n : Nat) : Nat := if n < 255 then n + 1 else 1

/-- A record holds the id. -/
def idHeld (ms : List Mark) (n : Nat) : Bool := ms.any (fun m => m.id = n)

/-- The first id after `n` that no record holds, among the next `k` counted (R187); with at most 64 records one is found. -/
def freeId (ms : List Mark) : Nat → Nat → Nat
  | 0, n => n
  | k + 1, n => if idHeld ms (idAfter n) then freeId ms k (idAfter n) else idAfter n

/-- The id a new mark takes (R187). -/
def newId (t : MarkTable) : Nat := freeId t.records 255 t.lastId

/-- Record `a` stands before record `b`: lower serial, or the same serial and a lower id (R187). -/
def markBefore (a b : Mark) : Bool := a.serial < b.serial || (a.serial = b.serial && a.id < b.id)

/-- A new record put in its place (R187). -/
def insertMark (m : Mark) : List Mark → List Mark
  | [] => [m]
  | x :: xs => if markBefore m x then m :: x :: xs else x :: insertMark m xs

/-! ## Records and entries -/

/-- ATTACHED 0, DETACHED 1 (R186, R217). -/
def detachedByte (m : Mark) : List Byte := be 1 (if m.detached then 1 else 0)

/-- A mark record as responses carry it, whole (R186). -/
def markField (m : Mark) : List Byte :=
  be 1 m.id ++ be 1 (ownerCode m.owner) ++ be 1 m.kind.code ++ be 4 m.serial ++ be 2 m.page ++ be 1 m.line ++ be 4 m.time
    ++ optField textField m.label ++ detachedByte m ++ [flagByte m.revised]

/-- The mark id, owner and kind of field A (R219). -/
def markFieldA (m : Mark) : Nat := three m.id (ownerCode m.owner) m.kind.code

/-- The MARK entry (R196, R219). -/
def markEntry (m : Mark) (s : State) : Entry :=
  { kind := .mark, attrs := clsAttrs s.cls.effective, seq := m.serial, time := s.session.clock
    fieldA := markFieldA m, fieldB := pageLine m.page m.line }

/-- The UNMARK entry: bit 7 of field B's last byte tells DETACHED, bit 6 REVISED (R196, R219). -/
def unmarkEntry (m : Mark) (s : State) : Entry :=
  { kind := .unmark, attrs := clsAttrs s.cls.effective, seq := m.serial, time := s.session.clock
    fieldA := markFieldA m
    fieldB := pageLine m.page m.line + (if m.detached then 128 else 0) + (if m.revised then 64 else 0) }

/-! ## Set Mark -/

/-- The record a Set Mark makes (R189, step 2). -/
def markOf (l : Link) (k : MarkKind) (ln : Line) (label : Option (List Byte)) (s : State) : Mark :=
  { id := newId s.marks, owner := l, kind := k, serial := ln.serial, page := ln.page, line := ln.line, time := s.session.clock
    label := label.map replaceText, detached := false, revised := false }

/-- A mark set: id, record, entry, notice (R189). -/
def applyMark (m : Mark) (s : State) : State :=
  let s1 := { s with marks := { records := insertMark m s.marks.records, lastId := m.id } }
  post (otherLink m.owner) .markChanged (append (markEntry m s1) s1)

/-- The record with an owner, a serial and a kind (R188, step 5). -/
def sameMark (ms : List Mark) (l : Link) (serial : Nat) (k : MarkKind) : Option Mark :=
  ms.find? (fun m => m.owner = l && m.serial = serial && m.kind = k)

/-- The Set Mark response: id, page and line, time set, characters replaced (R189). -/
def setMarkPayload (m : Mark) (label : Option (List Byte)) : List Byte :=
  be 1 m.id ++ be 2 m.page ++ be 1 m.line ++ be 4 m.time ++ be 1 (replacedCount (label.getD []))

/-- Steps 3 to 6 of R188 and R189, for a kind and a label that passed steps 1 and 2. -/
def setMarkOn (l : Link) (k : MarkKind) (a : SetMarkArgs) (s : State) : Reply :=
  match findLine s.lines.records a.serial with
  | none => refuse .notFound s
  | some ln =>
    if ln.state ≠ .settled then refuse .notSettled s
    else
      match sameMark s.marks.records l a.serial k with
      | some m => .done .already (be 1 m.id ++ detachedByte m ++ [flagByte m.revised]) s
      | none =>
        if markCapacity ≤ s.marks.records.length then refuse .tableFull s
        else
          let m := markOf l k ln a.label s
          .done .ok (setMarkPayload m a.label) (applyMark m s)

/-- Set Mark at the Mark Table (R188, R189). -/
def setMark (l : Link) (a : SetMarkArgs) (s : State) : Reply :=
  if s.session.st.isOpen = false then refuse .wrongState s
  else
    match MarkKind.ofCode a.kind with
    | none => refuse .range s
    | some k => if labelLimit < (a.label.getD []).length then refuse .range s else setMarkOn l k a s

/-- SET_MARK (R188). -/
def execSetMark (l : Link) (tag : Byte) (p : Payload SetMarkArgs) (s : State) : Host.Outcome State Fault Refusal :=
  .next (serve l tag .setMark p (setMark l) s)

/-! ## Remove Mark -/

/-- A mark removed: record, entry, notice (R191). -/
def applyUnmark (l : Link) (m : Mark) (s : State) : State :=
  let s1 := setMarks (s.marks.records.filter (fun x => x.id ≠ m.id)) s
  post (otherLink l) .markChanged (append (unmarkEntry m s1) s1)

/-- Remove Mark at the Mark Table (R191). -/
def removeMark (l : Link) (id : Nat) (s : State) : Reply :=
  if s.session.st.isOpen = false then refuse .wrongState s
  else
    match s.marks.records.find? (fun m => m.id = id) with
    | none => refuse .notFound s
    | some m => if m.owner ≠ l then .done .notOwner (markField m) s else .done .ok (markField m) (applyUnmark l m s)

/-- REMOVE_MARK (R191). -/
def execRemoveMark (l : Link) (tag : Byte) (p : Payload Nat) (s : State) : Host.Outcome State Fault Refusal :=
  .next (serve l tag .removeMark p (removeMark l) s)

/-! ## List Marks -/

/-- An owner filter passes a record: ALL 0, REPORTER 1, BENCH 2 (R192, R217). -/
def passes (filter : Nat) (m : Mark) : Bool := filter = 0 || filter = ownerCode m.owner + 1

/-- The records a List Marks can return, in table order (R192). -/
def marksFrom (a : ListMarksArgs) (ms : List Mark) : List Mark :=
  ms.filter (fun m => (a.serial < m.serial || (m.serial = a.serial && a.id ≤ m.id)) && passes a.filter m)

/-- The List Marks response (R192). -/
def listPayload (a : ListMarksArgs) (ms : List Mark) : List Byte :=
  listField markField ((marksFrom a ms).take listLimit)
    ++ be 1 ms.length ++ be 1 (ms.filter (fun m => !m.detached)).length ++ be 1 (ms.filter (fun m => m.detached)).length
    ++ [flagByte (listLimit < (marksFrom a ms).length)]

/-- List Marks at the Mark Table (R192). -/
def listMarks (a : ListMarksArgs) (s : State) : Reply :=
  if 3 ≤ a.filter then refuse .range s else .done .ok (listPayload a s.marks.records) s

/-- LIST_MARKS (R192). -/
def execListMarks (l : Link) (tag : Byte) (p : Payload ListMarksArgs) (s : State) : Host.Outcome State Fault Refusal :=
  .next (serve l tag .listMarks p listMarks s)

end Sys2Proof.Machine
end

