-- ==== Sys2Proof/Machine/TransOps.lean ====
section
/-! DEFINITION. The Translator (chapter 5): the forming and placing of units (R101 to R109), the resolution and flush passes (R95 to R98),
the correction stroke (R110 to R113), the resolution timer (R97), and its response to the session (R115, R116). -/

namespace Sys2Proof.Machine

/-- The state with the Translator replaced. -/
def setTrans (t : Translator) (s : State) : State := { s with trans := t }

/-! ## Placing a unit -/

/-- The most restrictive class of the strokes (R103). -/
def unitClass : List TStroke → Cls
  | [] => .opn
  | k :: ks => Cls.max k.cls (unitClass ks)

/-- A text whose first character in a..z has become the same letter in A..Z (R108). -/
def capitalize : List Byte → List Byte
  | [] => []
  | c :: cs => (if 0x61 ≤ c.toNat ∧ c.toNat ≤ 0x7A then c - 0x20#8 else c) :: cs

/-- The carry state after a unit (R109). -/
def carryAfter (c : Carry) (text : List Byte) (f : Fmt) : Carry :=
  if text = [] then { cap := c.cap || f.capNext, attach := c.attach || f.attachRight, glue := f.glue }
  else { cap := f.capNext, attach := f.attachRight, glue := f.glue }

/-- A separator is wanted (R108). -/
def wantsSep (c : Carry) (f : Fmt) : Bool := !(c.attach || f.attachLeft || (c.glue && f.glue))

/-- The highest serial among the OPEN and CLOSED lines (R102). -/
def highestUnsettled (s : State) : Option Nat := ((s.lines.records.filter Line.unsettled).getLast?).map (·.serial)

/-- The history pruned at a settled serial (R105). -/
def prune (serial : Nat) (h : List TUnit) : List TUnit :=
  h.dropWhile (fun u => match u.anchor with | none => true | some a => a ≤ serial)

/-- The settlement notices taken in order (R105). -/
def takeSettled (serials : List Nat) (s : State) : State :=
  setTrans { s.trans with history := serials.foldl (fun h n => prune n h) s.trans.history } s

/-- The history with a unit more: the oldest leaves when it would hold 33 (R104). -/
def pushUnit (u : TUnit) (h : List TUnit) : List TUnit :=
  if historyCapacity < h.length + 1 then (h ++ [u]).drop 1 else h ++ [u]

/-- A unit as a pass forms it, before it is placed (R96, R101, R102). -/
structure Formed where
  strokes : List TStroke
  kind    : UnitKind
  text    : List Byte
  fmt     : Fmt
deriving DecidableEq, Repr

/-- The text of a unit after capitalization (R108). -/
def Formed.shown (u : Formed) (c : Carry) : List Byte := if c.cap then capitalize u.text else u.text

/-- The Line Builder's part of placing a unit (R106, R108). -/
def placeFormed (u : Formed) (s : State) : Placed :=
  if u.text = [] then placeEmpty u.fmt.newLine s
  else
    place { text := u.shown s.trans.carry, sep := wantsSep s.trans.carry u.fmt, closeFirst := u.fmt.newLine
            cls := unitClass u.strokes
            first := ((u.strokes.head?).map (·.seq)).getD 0, last := ((u.strokes.getLast?).map (·.seq)).getD 0 } s

/-- The record of a placed unit (R102). -/
def unitOf (u : Formed) (s : State) (p : Placed) : TUnit :=
  { strokes := u.strokes, kind := u.kind, text := u.shown s.trans.carry, fmt := u.fmt, cls := unitClass u.strokes
    before := s.trans.carry, placement := p.placement
    anchor := match p.placement with
      | some q => some q.serial
      | none => highestUnsettled s }

/-- A unit is placed: the Line Builder lays it, the carry state is set, the unit enters the history when `keep` says so, and the
settlement notices of the placement are taken after it (R104, R105, R106, R109, R116). -/
def placeUnit (keep : Bool) (u : Formed) (s : State) : State :=
  let p := placeFormed u s
  takeSettled p.settled (setTrans { p.s.trans with
    carry := carryAfter s.trans.carry u.text u.fmt
    history := if keep then pushUnit (unitOf u s p) p.s.trans.history else p.s.trans.history } p.s)

/-! ## Resolution -/

/-- The press sets of strokes: the key they spell (R70). -/
def keyOf (ks : List TStroke) : List KeySet := ks.map (·.press)

/-- The longest front of `ks` of at most `n` strokes that resolves, with its entry (R95, step 3). -/
def longestFront (d : Dict) (ks : List TStroke) : Nat → Option (Nat × DictEntry)
  | 0 => none
  | n + 1 =>
    match (resolve d (keyOf (ks.take (n + 1)))).entry with
    | some e => some (n + 1, e)
    | none => longestFront d ks n

/-- The unit the front of the lookahead forms, and what remains (R95, steps 3 and 4). -/
def formFront (d : Dict) (ks : List TStroke) : Formed × List TStroke :=
  match longestFront d ks ks.length with
  | some (n, e) => ({ strokes := ks.take n, kind := .entry, text := e.text, fmt := e.fmt }, ks.drop n)
  | none =>
    ({ strokes := ks.take 1, kind := .untranslate, text := writtenForm ((ks.head?.map (·.press)).getD 0), fmt := Fmt.none },
     ks.drop 1)

/-- A resolution pass, or with `flush` a flush pass (R95, R98); `n` bounds the units it can form by the strokes there are. -/
def pass (flush keep : Bool) : Nat → State → State
  | 0, s => s
  | n + 1, s =>
    let ks := s.trans.lookahead
    if ks = [] then s
    else if flush = false ∧ ks.length < keyStrokes ∧ extendable s.dict (keyOf ks) = true then s
    else
      let u := formFront s.dict ks
      pass flush keep n (placeUnit keep u.1 (setTrans { s.trans with lookahead := u.2 } s))

/-- A resolution pass on the lookahead as it stands (R95). -/
def resolvePass (s : State) : State := pass false true s.trans.lookahead.length s

/-- A flush pass whose units enter the history (R98). -/
def flushPass (s : State) : State := pass true true s.trans.lookahead.length s

/-- The resolution timer after an event: it is set when the event changed the lookahead's contents from `before` (R97). -/
def setTimer (before : List TStroke) (s : State) : State :=
  if s.trans.lookahead = before then s
  else
    setTrans { s.trans with
      timer := if s.trans.lookahead = [] ∨ s.trans.setting = 0 then none else some (s.now + s.trans.setting) } s

/-- The resolution timer stopped. -/
def stopTimer (s : State) : State := setTrans { s.trans with timer := none } s

/-! ## Strokes -/

/-- A stroke as the lookahead holds it (R93). -/
def Stroke.held3 (k : Stroke) : TStroke := { seq := k.seq, press := k.press, cls := k.cls }

/-- The stroke is a correction stroke: its press set is exactly the star key (R110). -/
def Stroke.isCorrection (k : Stroke) : Bool := k.press = starSet

/-- The Line Builder takes a flush-complete notice (R130), and the Translator its settlement notices (R105). -/
def flushComplete (s : State) : State :=
  let r := settleAll s
  takeSettled r.2 r.1

/-- An ordinary stroke in LIVE joins the lookahead and a pass runs (R94, R95). -/
def takeOrdinary (k : Stroke) (s : State) : State :=
  setTimer s.trans.lookahead (resolvePass (setTrans { s.trans with lookahead := s.trans.lookahead ++ [k.held3] } s))

/-- An ordinary stroke outside LIVE is flushed at once, its unit does not enter the history, and every line settles (R116). -/
def takeLateStroke (k : Stroke) (s : State) : State :=
  let s1 := setTrans { s.trans with lookahead := s.trans.lookahead ++ [k.held3] } s
  flushComplete (setTimer s.trans.lookahead (pass true false s1.trans.lookahead.length s1))

/-- A correction stroke with strokes waiting: the newest leaves the lookahead and a pass runs (R111). -/
def dropNewest (s : State) : State :=
  setTimer s.trans.lookahead (resolvePass (setTrans { s.trans with lookahead := s.trans.lookahead.dropLast } s))

/-- The newest unit is retracted (R112). -/
def retractUnit (u : TUnit) (s : State) : State :=
  let s1 := match u.placement with
    | some p => retract p s
    | none => s
  setTimer s.trans.lookahead (resolvePass (setTrans { s1.trans with
    history := s1.trans.history.dropLast
    carry := u.before
    lookahead := u.strokes.dropLast ++ s1.trans.lookahead } s1))

/-- A correction stroke in LIVE (R111, R112, R113). -/
def takeCorrection (s : State) : State :=
  if s.trans.lookahead ≠ [] then dropNewest s
  else
    match s.trans.history.getLast? with
    | some u => retractUnit u s
    | none => post .reporter .lateCorrection s

/-- A stroke is taken by the Translator (R94, R110, R116). -/
def takeStroke (k : Stroke) (s : State) : State :=
  if s.session.st = .live then
    if k.isCorrection then takeCorrection s else takeOrdinary k s
  else if k.isCorrection then post .reporter .lateCorrection s
  else takeLateStroke k s

/-- Every stroke handed over is taken, in order: so the Translator does before it takes an Open Session (R116). -/
def takeAllHanded : Nat → State → State
  | 0, s => s
  | n + 1, s =>
    match s.trans.handed with
    | [] => s
    | k :: ks => takeAllHanded n (takeStroke k (setTrans { s.trans with handed := ks } s))

/-! ## The session -/

/-- The Translator takes a change of session state out of LIVE, or from RECESS to CLOSING: flush, empty history, at a close the carry
state cleared, then the flush-complete notice (R115). -/
def leaveLive (closing : Bool) (s : State) : State :=
  let s1 := stopTimer (flushPass s)
  flushComplete (setTrans { s1.trans with
    history := []
    carry := if closing then Carry.clear else s1.trans.carry } s1)

/-- The Translator at Open Session (R117). -/
def transAtOpen (s : State) : State :=
  setTrans { s.trans with lookahead := [], history := [], carry := Carry.clear, timer := none } s

end Sys2Proof.Machine
end

