-- ==== Sys2Proof/Machine/Sessions.lean ====
section
/-! DEFINITION. The session requests: Open Session (R60, R61), Recess (R62), Resume (R63), Close Session (R64) and Reset Part (R68), with
what every block does at each (R10, R19, R87, R115, R117, R140, R153, R184, R197). -/

namespace Sys2Proof.Machine

/-- The session state set. -/
def setSession (st : SessState) (s : State) : State := { s with session := { s.session with st := st } }

/-- A zeroing runs. -/
def zeroingRuns (s : State) : Bool := s.ksu.zeroing.isSome

/-! ## The session entries (R67, R219) -/

/-- The OPEN entry. -/
def openEntry (s : State) : Entry :=
  { kind := .opn, attrs := clsAttrs s.cls.effective, seq := 0, time := s.session.clock
    fieldA := s.session.number, fieldB := if s.dict.mainState = .empty then 0 else s.dict.main.length }

/-- The RECESS, RESUME and CLOSE entries. -/
def sessionEntry (k : EntryKind) (s : State) : Entry :=
  { kind := k, attrs := clsAttrs s.cls.effective, seq := s.chords.strokes, time := s.session.clock
    fieldA := s.session.number, fieldB := s.session.recesses }

/-- Session Control asks for the FILLING block's close; a FAULTED journal does nothing (R32). -/
def askClose (r : CloseReason) (s : State) : State :=
  if s.journal.cond.isFaulted then s else closeFilling r s

/-! ## Open Session -/

/-- The refusal of an Open Session, the first condition that holds (R59, R60). In RECESS with a zeroing running R12 says BUSY and R59's table
WRONG_STATE: the table's column is taken first (log entry 39). -/
def openRefusal (s : State) : Option Status :=
  if s.session.st ≠ .standby then some .wrongState
  else if zeroingRuns s then some .busy
  else if max16 ≤ s.session.number then some .range
  else if s.dict.mainState = .loading ∨ s.dict.mainState = .building then some .wrongState
  else if s.journal.cond.isFaulted then some .journalFault
  else none

/-- Session Control's and the Chord Former's numbers at Open Session (R61, steps 1 to 4). -/
def newSession (s : State) : State :=
  { s with
    session := { s.session with number := s.session.number + 1, clock := 0, recesses := 0 }
    chords := { s.chords with strokes := 0 } }

/-- The Line Store, the feeds and the Mark Table at Open Session (R140, R184, R197). -/
def emptyTranscript (s : State) : State :=
  feedsAtOpen { s with
    lines := LineStore.emptied s.lines.width s.lines.pageLen s.lines.settle
    marks := MarkTable.emptied }

/-- The session opens (R61): strokes handed over are taken first (R116), the class is formed before the OPEN entry (R153), the state becomes
LIVE after it, and the other blocks respond. -/
def opened (s : State) : State :=
  let s1 := openClass (newSession (takeAllHanded s.trans.handed.length s))
  let s2 := setSession .live (append (openEntry s1) s1)
  chooseAll (emptyTranscript (transAtOpen (ignoreActive (postBoth .sessionState s2))))

/-- Open Session at Session Control (R60, R61). -/
def openSession (_ : Unit) (s : State) : Reply :=
  match openRefusal s with
  | some st => refuse st s
  | none => .done .ok (be 2 (opened s).session.number) (opened s)

/-- OPEN_SESSION (R61). -/
def execOpenSession (l : Link) (tag : Byte) (p : Payload Unit) (s : State) : Host.Outcome State Fault Refusal :=
  .next (serve l tag .openSession p openSession s)

/-! ## Recess and Resume -/

/-- The session recesses (R62): state, recess count, RECESS entry, the block's close, the notice; the chord is abandoned (R19) and the
Translator flushes (R115). -/
def recessed (s : State) : State :=
  let s1 := { s with session := { s.session with st := .recess, recesses := succHold max24 s.session.recesses } }
  let s2 := postBoth .sessionState (askClose .recess (append (sessionEntry .recess s1) s1))
  chooseAll (leaveLive false (abandonChord s2))

/-- Recess at Session Control (R59, R62). -/
def recess (_ : Unit) (s : State) : Reply :=
  match s.session.st with
  | .live => .done .ok [] (recessed s)
  | .recess => refuse .already s
  | _ => refuse .wrongState s

/-- RECESS (R62). -/
def execRecess (l : Link) (tag : Byte) (p : Payload Unit) (s : State) : Host.Outcome State Fault Refusal :=
  .next (serve l tag .recess p recess s)

/-- The session resumes (R63): RESUME entry, state, notice; keys pressed take the ignore mark (R10). -/
def resumed (s : State) : State :=
  ignoreActive (postBoth .sessionState (setSession .live (append (sessionEntry .resume s) s)))

/-- Resume at Session Control (R59, R63). In STANDBY with a zeroing running R12 says BUSY and R59's table WRONG_STATE: the table's column is
taken first (log entry 39). -/
def resume (_ : Unit) (s : State) : Reply :=
  match s.session.st with
  | .recess => if zeroingRuns s then refuse .busy s else .done .ok [] (resumed s)
  | .live => refuse .already s
  | _ => refuse .wrongState s

/-- RESUME (R63). -/
def execResume (l : Link) (tag : Byte) (p : Payload Unit) (s : State) : Host.Outcome State Fault Refusal :=
  .next (serve l tag .resume p resume s)

/-! ## Close Session -/

/-- The session closes (R64): state, CLOSE entry, the block's close, the notice; an open group is discarded (R87), the chord abandoned (R19),
the Translator flushed (R115); where no buffer is QUEUED or WRITING, or the journal is FAULTED, the session reaches STANDBY (R40, R65). -/
def closed (s : State) : State :=
  let s1 := setSession .closing s
  let s2 := postBoth .sessionState (askClose .close (append (sessionEntry .close s1) s1))
  closingReport (chooseAll (leaveLive true (abandonChord (discardGroup s2))))

/-- Close Session at Session Control (R59, R64). In STANDBY with a zeroing running R12 says BUSY and R59's table WRONG_STATE: the table's
column is taken first (log entry 39). -/
def closeSession (_ : Unit) (s : State) : Reply :=
  match s.session.st with
  | .live => .done .ok [] (closed s)
  | .recess => if zeroingRuns s then refuse .busy s else .done .ok [] (closed s)
  | .closing => refuse .already s
  | _ => refuse .wrongState s

/-- CLOSE_SESSION (R64). -/
def execCloseSession (l : Link) (tag : Byte) (p : Payload Unit) (s : State) : Host.Outcome State Fault Refusal :=
  .next (serve l tag .closeSession p closeSession s)

/-! ## Reset Part -/

/-- Reset Part at Session Control (R59, R68): the warm reset takes effect when the response is read, or 100 ms after it became ready. -/
def resetPart (_ : Unit) (s : State) : Reply :=
  .done .ok [] { s with session := { s.session with resetPartDue := some (s.now + resetPartWait) } }

/-- RESET_PART (R68). -/
def execResetPart (l : Link) (tag : Byte) (p : Payload Unit) (s : State) : Host.Outcome State Fault Refusal :=
  .next (serve l tag .resetPart p resetPart s)

end Sys2Proof.Machine
end

