-- ==== Sys2Proof/Machine/Translation.lean ====
section
/-! DEFINITION. The Translator's commands: a stroke taken (R94), the resolution timer's expiry (R98), a tier-change notice taken
(R114). Each ends with the feeds' choices (R163; log entry 14). -/

namespace Sys2Proof.Machine

/-- The Translator takes the oldest stroke handed over (R94, R110, R116); with none handed over nothing occurs. -/
def takeNext (s : State) : State :=
  match s.trans.handed with
  | [] => s
  | k :: ks => chooseAll (takeStroke k (setTrans { s.trans with handed := ks } s))

/-- STROKE_HANDOVER (R94). -/
def execStrokeHandover (s : State) : Host.Outcome State Fault Refusal := .next (takeNext s)

/-- The resolution timer expires: a flush pass, and the timer is stopped (R98); the expiry of a timer that is stopped or not yet due does
not occur. -/
def resolutionExpired (s : State) : State :=
  if Timer.due s.trans.timer s.now then chooseAll (stopTimer (flushPass s)) else s

/-- RESOLUTION_TIMER_EXPIRY (R98). -/
def execResolutionTimerExpiry (s : State) : Host.Outcome State Fault Refusal := .next (resolutionExpired s)

/-- The Translator takes a tier-change notice: a resolution pass under the new contents, the timer set when it formed units (R97, R114);
with no notice waiting nothing occurs. -/
def tiersChanged (s : State) : State :=
  match s.trans.notices with
  | 0 => s
  | n + 1 => chooseAll (setTimer s.trans.lookahead (resolvePass (setTrans { s.trans with notices := n } s)))

/-- TIER_CHANGE_NOTICE (R114). -/
def execTierChangeNotice (s : State) : Host.Outcome State Fault Refusal := .next (tiersChanged s)

end Sys2Proof.Machine
end

