-- ==== Sys2Proof/Machine/Dispatch.lean ====
section
/-! DEFINITION. The dispatch of the commands: one arm for each constructor of `Instr`, each one call of its meaning. -/

namespace Sys2Proof.Machine

/-- The effect of a command on everything but the queue of waiting commands. -/
def exec (i : Instr) (s : State) : Host.Outcome State Fault Refusal :=
  match i with
  | .powerOn => Sys2Proof.Machine.execPowerOn s
  | .rstnAssert => Sys2Proof.Machine.execRstnAssert s
  | .rstnRelease => Sys2Proof.Machine.execRstnRelease s
  | .resetPartTimeout => Sys2Proof.Machine.execResetPartTimeout s
  | .recoverySlotRead r => Sys2Proof.Machine.execRecoverySlotRead r s
  | .recoveryComplete => Sys2Proof.Machine.execRecoveryComplete s
  | .keySample raw => Sys2Proof.Machine.execKeySample raw s
  | .holdTimerExpiry => Sys2Proof.Machine.execHoldTimerExpiry s
  | .zeroingComplete => Sys2Proof.Machine.execZeroingComplete s
  | .blockIntervalExpiry => Sys2Proof.Machine.execBlockIntervalExpiry s
  | .blockWriteStart => Sys2Proof.Machine.execBlockWriteStart s
  | .reporterTransferStart => Sys2Proof.Machine.execReporterTransferStart s
  | .blockWriteComplete ok => Sys2Proof.Machine.execBlockWriteComplete ok s
  | .blockReadComplete r => Sys2Proof.Machine.execBlockReadComplete r s
  | .headerClearComplete ok => Sys2Proof.Machine.execHeaderClearComplete ok s
  | .buildComplete => Sys2Proof.Machine.execBuildComplete s
  | .strokeHandover => Sys2Proof.Machine.execStrokeHandover s
  | .resolutionTimerExpiry => Sys2Proof.Machine.execResolutionTimerExpiry s
  | .tierChangeNotice => Sys2Proof.Machine.execTierChangeNotice s
  | .sbarChange high => Sys2Proof.Machine.execSbarChange high s
  | .deglitchExpiry => Sys2Proof.Machine.execDeglitchExpiry s
  | .fnrdyChange feed high => Sys2Proof.Machine.execFnrdyChange feed high s
  | .fgate3Change high => Sys2Proof.Machine.execFgate3Change high s
  | .frameComplete feed => Sys2Proof.Machine.execFrameComplete feed s
  | .idleTimerExpiry feed => Sys2Proof.Machine.execIdleTimerExpiry feed s
  | .stallTimerExpiry feed => Sys2Proof.Machine.execStallTimerExpiry feed s
  | .presenceTimerExpiry l => Sys2Proof.Machine.execPresenceTimerExpiry l s
  | .fetch l n => Sys2Proof.Machine.execFetch l n s
  | .frameError l bytes => Sys2Proof.Machine.execFrameError l bytes s
  | .frameDiscarded l bytes => Sys2Proof.Machine.execFrameDiscarded l bytes s
  | .unknownRequest l code tag => Sys2Proof.Machine.execUnknownRequest l code tag s
  | .getStatus l tag p => Sys2Proof.Machine.execGetStatus l tag p s
  | .readAttention l tag p => Sys2Proof.Machine.execReadAttention l tag p s
  | .readLines l tag p => Sys2Proof.Machine.execReadLines l tag p s
  | .setMark l tag p => Sys2Proof.Machine.execSetMark l tag p s
  | .removeMark l tag p => Sys2Proof.Machine.execRemoveMark l tag p s
  | .listMarks l tag p => Sys2Proof.Machine.execListMarks l tag p s
  | .readFeedHealth l tag p => Sys2Proof.Machine.execReadFeedHealth l tag p s
  | .setTranslationParameters l tag p => Sys2Proof.Machine.execSetTranslationParameters l tag p s
  | .setKeyConditioning l tag p => Sys2Proof.Machine.execSetKeyConditioning l tag p s
  | .setChordTiming l tag p => Sys2Proof.Machine.execSetChordTiming l tag p s
  | .zeroKeys l tag p => Sys2Proof.Machine.execZeroKeys l tag p s
  | .readKeyDepths l tag p => Sys2Proof.Machine.execReadKeyDepths l tag p s
  | .beginMainLoad l tag p => Sys2Proof.Machine.execBeginMainLoad l tag p s
  | .loadEntries l tag p => Sys2Proof.Machine.execLoadEntries l tag p s
  | .endMainLoad l tag p => Sys2Proof.Machine.execEndMainLoad l tag p s
  | .openGroup l tag p => Sys2Proof.Machine.execOpenGroup l tag p s
  | .stageDefine l tag p => Sys2Proof.Machine.execStageDefine l tag p s
  | .stageRemove l tag p => Sys2Proof.Machine.execStageRemove l tag p s
  | .commitGroup l tag p => Sys2Proof.Machine.execCommitGroup l tag p s
  | .abandonGroup l tag p => Sys2Proof.Machine.execAbandonGroup l tag p s
  | .clearJobTier l tag p => Sys2Proof.Machine.execClearJobTier l tag p s
  | .lookUp l tag p => Sys2Proof.Machine.execLookUp l tag p s
  | .openSession l tag p => Sys2Proof.Machine.execOpenSession l tag p s
  | .recess l tag p => Sys2Proof.Machine.execRecess l tag p s
  | .resume l tag p => Sys2Proof.Machine.execResume l tag p s
  | .closeSession l tag p => Sys2Proof.Machine.execCloseSession l tag p s
  | .resetPart l tag p => Sys2Proof.Machine.execResetPart l tag p s
  | .readJournalBlock l tag p => Sys2Proof.Machine.execReadJournalBlock l tag p s
  | .releaseJournalBlock l tag p => Sys2Proof.Machine.execReleaseJournalBlock l tag p s
  | .closeJournalBlock l tag p => Sys2Proof.Machine.execCloseJournalBlock l tag p s
  | .journalSummary l tag p => Sys2Proof.Machine.execJournalSummary l tag p s
  | .editLine l tag p => Sys2Proof.Machine.execEditLine l tag p s
  | .setFeed l tag p => Sys2Proof.Machine.execSetFeed l tag p s
  | .enableFeed l tag p => Sys2Proof.Machine.execEnableFeed l tag p s
  | .disableFeed l tag p => Sys2Proof.Machine.execDisableFeed l tag p s
  | .testFeed l tag p => Sys2Proof.Machine.execTestFeed l tag p s
  | .setClass l tag p => Sys2Proof.Machine.execSetClass l tag p s
  | .holdFeeds l tag p => Sys2Proof.Machine.execHoldFeeds l tag p s
  | .releaseFeeds l tag p => Sys2Proof.Machine.execReleaseFeeds l tag p s

end Sys2Proof.Machine
end

