-- ==== Sys2Proof/WellFormed.lean ====
section
/-! DEFINITION. Well-formed commands: every operand lies within what its field holds (R217), a slot's bytes are 1,056 (R25), a transfer is of
the kind its command names (R200, R201, R203, R205), and a request frame's payload is within 1,100 bytes (R205, R216). -/

namespace Sys2Proof

/-- A number fits a field of `w` bytes. -/
def fits (w n : Nat) : Bool := n < 256 ^ w

/-- An optional number fits. -/
def fitsOpt (w : Nat) : Option Nat → Bool
  | none => true
  | some n => fits w n

/-- The fields of a payload satisfy `ok`; a payload of wrong length carries none. -/
def Payload.ok {α : Type} (ok : α → Bool) : Payload α → Bool
  | .fields a => ok a
  | .badLength => true

/-- A dictionary key's count fits. -/
def keyFits (k : List (BitVec 24)) : Bool := fits 1 k.length

/-- A dictionary entry's fields fit. -/
def RawEntry.fit (e : RawEntry) : Bool := keyFits e.key && fits 1 e.text.length

/-- The altered bytes of a read are a whole slot. -/
def SlotRead.ok : SlotRead → Bool
  | .altered bytes => bytes.length = Machine.slotBytes
  | _ => true

/-- The altered bytes of a recovery read are a whole slot. -/
def RecoveryRead.ok : RecoveryRead → Bool
  | .altered bytes => bytes.length = Machine.slotBytes
  | _ => true

/-- A starting point's numbers fit. -/
def LineStart.fit : LineStart → Bool
  | .serial n => fits 4 n
  | .pageLine p n => fits 2 p && fits 1 n

/-- The values of Set Translation Parameters fit. -/
def ParamArgs.fit (a : ParamArgs) : Bool :=
  fitsOpt 2 a.resolution && fitsOpt 1 a.width && fitsOpt 1 a.pageLen && fitsOpt 1 a.settle && fitsOpt 2 a.interval
    && fitsOpt 1 a.deglitch && fitsOpt 2 a.repPresence && fitsOpt 2 a.benchPresence

/-- The values of Set Key Conditioning fit. -/
def KeyCondArgs.fit (a : KeyCondArgs) : Bool :=
  fits 1 a.key && (-32768 ≤ a.offset && a.offset ≤ 32767) && fits 1 a.gain && fits 2 a.press && fits 2 a.light

/-- The values of Set Chord Timing fit. -/
def ChordTimingArgs.fit (a : ChordTimingArgs) : Bool :=
  fits 1 a.pressCount && fits 1 a.releaseCount && fits 1 a.hysteresis && fits 2 a.holdLimit && fits 2 a.scanInterval

/-- The values of Set Feed fit. -/
def SetFeedArgs.fit (a : SetFeedArgs) : Bool :=
  fits 1 a.feed && fits 1 a.audience && fits 1 a.rate && fits 2 a.backfill && fits 2 a.idle && fits 2 a.stall

/-- A request's frame keeps within the largest request frame, 1,104 bytes (R216). -/
def Instr.frameFits (i : Instr) : Bool :=
  match encodeRequest i with
  | some (_, bytes) => bytes.length ≤ 4 + Machine.payloadLimit
  | none => true

/-- Each operand lies within what its field holds. -/
def Instr.operandsOk : Instr → Bool
  | .recoverySlotRead r => r.ok
  | .blockReadComplete r => r.ok
  | .fetch _ n => 0 < n
  | .frameError _ bytes => Machine.isWrite bytes && Machine.malformed bytes
  | .frameDiscarded _ bytes => Machine.isWrite bytes
  | .unknownRequest _ code _ => Machine.unknownCode code
  | .readLines _ _ p => p.ok (fun a => a.start.fit && fits 1 a.count)
  | .setMark _ _ p => p.ok (fun a => fits 4 a.serial && fits 1 a.kind && fits 1 (a.label.getD []).length)
  | .removeMark _ _ p => p.ok (fits 1)
  | .listMarks _ _ p => p.ok (fun a => fits 1 a.filter && fits 4 a.serial && fits 1 a.id)
  | .setTranslationParameters _ _ p => p.ok ParamArgs.fit
  | .setKeyConditioning _ _ p => p.ok KeyCondArgs.fit
  | .setChordTiming _ _ p => p.ok ChordTimingArgs.fit
  | .loadEntries _ _ p => p.ok (fun es => fits 1 es.length && es.all RawEntry.fit)
  | .stageDefine _ _ p => p.ok RawEntry.fit
  | .stageRemove _ _ p => p.ok keyFits
  | .lookUp _ _ p => p.ok keyFits
  | .readJournalBlock _ _ p => p.ok (fits 4)
  | .releaseJournalBlock _ _ p => p.ok (fits 4)
  | .editLine _ _ p => p.ok (fun a => fits 4 a.serial && fits 1 a.text.length)
  | .setFeed _ _ p => p.ok SetFeedArgs.fit
  | .enableFeed _ _ p => p.ok (fits 1)
  | .disableFeed _ _ p => p.ok (fits 1)
  | .testFeed _ _ p => p.ok (fun a => fits 1 a.feed && fits 1 a.count)
  | .setClass _ _ p => p.ok (fits 1)
  | .holdFeeds _ _ _ => true
  | .releaseFeeds _ _ _ => true
  | .powerOn => true
  | .rstnAssert => true
  | .rstnRelease => true
  | .resetPartTimeout => true
  | .recoveryComplete => true
  | .keySample _ => true
  | .holdTimerExpiry => true
  | .zeroingComplete => true
  | .blockIntervalExpiry => true
  | .blockWriteStart => true
  | .reporterTransferStart => true
  | .blockWriteComplete _ => true
  | .headerClearComplete _ => true
  | .buildComplete => true
  | .strokeHandover => true
  | .resolutionTimerExpiry => true
  | .tierChangeNotice => true
  | .sbarChange _ => true
  | .deglitchExpiry => true
  | .fnrdyChange _ _ => true
  | .fgate3Change _ => true
  | .frameComplete _ => true
  | .idleTimerExpiry _ => true
  | .stallTimerExpiry _ => true
  | .presenceTimerExpiry _ => true
  | .getStatus _ _ _ => true
  | .readAttention _ _ _ => true
  | .readFeedHealth _ _ _ => true
  | .zeroKeys _ _ _ => true
  | .readKeyDepths _ _ _ => true
  | .beginMainLoad _ _ _ => true
  | .endMainLoad _ _ _ => true
  | .openGroup _ _ _ => true
  | .commitGroup _ _ _ => true
  | .abandonGroup _ _ _ => true
  | .clearJobTier _ _ _ => true
  | .openSession _ _ _ => true
  | .recess _ _ _ => true
  | .resume _ _ _ => true
  | .closeSession _ _ _ => true
  | .resetPart _ _ _ => true
  | .closeJournalBlock _ _ _ => true
  | .journalSummary _ _ _ => true

/-- A well-formed command. -/
def Instr.wf (i : Instr) : Bool := i.operandsOk && i.frameFits

end Sys2Proof
end

