-- ==== Sys2Proof/Safety.lean ====
section
/-! DEFINITION. What counts as a sound state and a sound step, in the terms the statements use: a link ready for a request, the forms a
request's end takes, the journal entries asked for, and the invariants of the memory, the effective class, the chord, the feeds and the Mark
Table. -/

namespace Sys2Proof.Machine

/-! ## Requests -/

/-- A link takes the next request frame and hands it on: RSTN is not held, the link is IDLE, and the part is past START (R201, R214). -/
def Takes (l : Link) (s : State) : Prop := s.pins.rstnHeld = false ∧ (s.link l).exch = .idle ∧ s.session.st ≠ .start

/-- The state with a request's response in the link's response slot (R202). -/
def answered (l : Link) (r : Req) (tag : Byte) (status : Status) (payload : List Byte) (s : State) : State :=
  s.setLink l { s.link l with exch := .ready { code := r.code, tag := tag, status := status, payload := payload } }

/-- The state with a request held EXECUTING on its link (R202). -/
def executing (l : Link) (r : Req) (tag : Byte) (s : State) : State :=
  s.setLink l { s.link l with exch := .executing r.code tag }

/-! ## Invariants -/

/-- The attached memory and the slot table stand in their canonical form: slots rising, none listed that reads as an unlisted one. -/
def StoresCanonical (s : State) : Prop := Memory.wf s.memory ∧ sparseRising s.journal.slots

/-- The effective class is the more restrictive of the bench class and of the class the SBAR indication gives (R148). -/
def ClassFormed (s : State) : Prop := s.cls.effective = Cls.max s.cls.bench (if s.cls.sbar then .sidebar else .opn)

/-- A chord is open only while the session is LIVE (R15, R19; the table of states of 03_sessions.md). -/
def ChordInLive (s : State) : Prop := s.chords.chord ≠ none → s.session.st = .live

/-- The class of the text a frame carries; none for a frame without text (R156). -/
def FeedFrame.textClass : FeedFrame → Option Cls
  | .text _ _ _ _ cls _ _ => some cls
  | _ => none

/-- The classes visible to an audience (R156). -/
def mayShow : Audience → Cls → Prop
  | .bench, _ => True
  | .counsel, c => c = .opn ∨ c = .sidebar
  | .pub, c => c = .opn

/-- No feed has in flight the text of a line its audience may not see, and an OFF feed has nothing in flight (R156, R161). -/
def NoLeak (s : State) : Prop :=
  ∀ f : Fin 4, ((feed s f).state = .off → (feed s f).flight = none) ∧
    ∀ fr, (feed s f).flight = some fr → ∀ c, fr.textClass = some c → mayShow (feed s f).audience c

/-- The Mark Table holds at most 64 records, in order of serial and id, no two with the same id, nor with the same owner, serial and kind
(R187). -/
def MarksSound (s : State) : Prop :=
  s.marks.records.length ≤ 64
    ∧ s.marks.records.Pairwise (fun a b => a.serial < b.serial ∨ (a.serial = b.serial ∧ a.id < b.id))
    ∧ s.marks.records.Pairwise (fun a b => a.id ≠ b.id)
    ∧ s.marks.records.Pairwise (fun a b => ¬(a.owner = b.owner ∧ a.serial = b.serial ∧ a.kind = b.kind))

/-- Every ATTACHED mark refers to a SETTLED line that stands in the Line Store (R187). -/
def MarksAttached (s : State) : Prop :=
  ∀ m ∈ s.marks.records, m.detached = false → ∃ l ∈ s.lines.records, l.serial = m.serial ∧ l.state = .settled

/-! ## Entries asked for -/

/-- In NORMAL, with a FILLING block of fewer than 63 entries and an entry sequence below the last, the entry asked for joins that block, and
nothing else of the journal has changed (R28, R29). -/
def EntryJoins (e : Entry) (s t : State) : Prop :=
  ∀ i b, s.journal.cond = .normal → findFilling s.journal.buffers = some (i, b) → b.entries.length < 63 →
    s.journal.nextEntry < 4294967295 →
    t.journal = { s.journal with
      buffers := s.journal.buffers.set i (.filling (b.add e)), nextEntry := s.journal.nextEntry + 1 }

/-- Under the same conditions the entry asked for joins the FILLING block, and the block closes with it for the reason given: its buffer joins
the tail of the write queue, and the interval timer stops (R31, R33). -/
def EntryCloses (e : Entry) (r : CloseReason) (s t : State) : Prop :=
  ∀ i b, s.journal.cond = .normal → findFilling s.journal.buffers = some (i, b) → b.entries.length < 63 →
    s.journal.nextEntry < 4294967295 →
    t.journal = { s.journal with
      buffers := s.journal.buffers.set i (.queued ((b.add e).closed r s.session.clock) none)
      queue := s.journal.queue ++ [i], intervalTimer := none, nextEntry := s.journal.nextEntry + 1 }

/-! ## Frames -/

/-- The levels on the pins, the elapsed time and the waiting commands are as they were. -/
def OutsideKept (s t : State) : Prop := t.pins = s.pins ∧ t.now = s.now ∧ t.pending = s.pending

/-- Outside CLOSING the session is as it was; an append that makes the journal FAULTED can end CLOSING (R38, R65). -/
def SessionHeld (s t : State) : Prop := s.session.st ≠ .closing → t.session = s.session

/-- Nothing but the Translator, the lines, the feeds, the marks and the links has changed. -/
def UpstreamKept (s t : State) : Prop :=
  t.ksu = s.ksu ∧ t.chords = s.chords ∧ t.session = s.session ∧ t.journal = s.journal ∧ t.memory = s.memory ∧ t.dict = s.dict ∧
    t.cls = s.cls ∧ OutsideKept s t

/-- Nothing but the lines, the feeds, the links and the pins has changed. -/
def OnlyFeedsMove (s t : State) : Prop :=
  t.ksu = s.ksu ∧ t.chords = s.chords ∧ t.session = s.session ∧ t.journal = s.journal ∧ t.memory = s.memory ∧ t.dict = s.dict ∧
    t.trans = s.trans ∧ t.cls = s.cls ∧ t.marks = s.marks ∧ t.now = s.now ∧ t.pending = s.pending

/-! ## Text in lines -/

/-- No text has changed: the open line and the numbering are as they were, and each record holds its text, state and revision; a WITHDRAWN
record may have left the store, and what a feed has sent may have been written (R111, R134, R166). -/
def TextKept (s t : State) : Prop :=
  t.lines.openLine = s.lines.openLine ∧ t.lines.counter = s.lines.counter ∧ t.lines.nextPage = s.lines.nextPage ∧
    t.lines.nextLine = s.lines.nextLine ∧
    (∀ x ∈ t.lines.records, ∃ y ∈ s.lines.records, x.serial = y.serial ∧ x.text = y.text ∧ x.state = y.state ∧ x.revision = y.revision) ∧
    (∀ y ∈ s.lines.records, y.state ≠ .withdrawn →
      ∃ x ∈ t.lines.records, x.serial = y.serial ∧ x.text = y.text ∧ x.state = y.state ∧ x.revision = y.revision)

/-- A dictionary entry's text is one word that no flag attaches or moves to a new line, under a clear carry state (R107, R108, R123). -/
def OneWord (e : DictEntry) (s : State) : Prop :=
  e.text ≠ [] ∧ 0x20#8 ∉ e.text ∧ e.fmt.newLine = false ∧ e.fmt.attachLeft = false ∧
    s.trans.carry = { cap := false, attach := false, glue := false }

/-- The word finds an open line of the class with room for a separator and itself (R108, R122, R123). -/
def WordFits (e : DictEntry) (cls : Cls) (n : Nat) (l : Line) (s : State) : Prop :=
  OneWord e s ∧ s.lines.openLine = some n ∧ findLine s.lines.records n = some l ∧ l.state = .opn ∧ l.cls = cls ∧
    l.text.length + 1 + e.text.length ≤ s.lines.width

/-- A separator and the word stand at the end of the line: its revision has risen once, it has one run more, and its stroke range ends with
the unit's last stroke (R123, R127). -/
def WordJoined (e : DictEntry) (n : Nat) (l : Line) (first last : Nat) (t : State) : Prop :=
  t.lines.openLine = some n ∧ ∃ x, findLine t.lines.records n = some x ∧
    x.text = l.text ++ 0x20#8 :: e.text ∧ x.revision = (if l.revision < 65535 then l.revision + 1 else 65535) ∧
    x.runs = l.runs ++ [{ column := l.text.length, first := first, last := last }] ∧
    x.range = some ((l.range.map Prod.fst).getD first, last) ∧ x.state = .opn ∧ x.cls = l.cls ∧ x.page = l.page ∧ x.line = l.line

/-- The word stands alone in a line just opened, the open line, under the next serial and the next number (R125, R126, R127). -/
def WordOpened (e : DictEntry) (cls : Cls) (first last : Nat) (s t : State) : Prop :=
  t.lines.counter = s.lines.counter + 1 ∧ t.lines.openLine = some (s.lines.counter + 1) ∧
    ∃ x, findLine t.lines.records (s.lines.counter + 1) = some x ∧
      x.text = e.text ∧ x.revision = 1 ∧ x.state = .opn ∧ x.cls = cls ∧ x.edited = false ∧ x.range = some (first, last) ∧
      x.runs = [{ column := 0, first := first, last := last }] ∧
      (x.page, x.line) =
        (if s.lines.pageLen < s.lines.nextLine then (if s.lines.nextPage < 65535 then s.lines.nextPage + 1 else 65535, 1)
         else (s.lines.nextPage, s.lines.nextLine)) ∧
      (t.lines.nextPage, t.lines.nextLine) =
        (if s.lines.pageLen ≤ x.line then (if x.page < 65535 then x.page + 1 else 65535, 1) else (x.page, x.line + 1))

/-- The history with a unit more, the oldest leaving where it would hold 33, and then pruned at each line settled, lowest first: the units
before the first that stands in a later line leave it (R104, R105). -/
def historyWith (u : TUnit) (settled : List Nat) (h : List TUnit) : List TUnit :=
  settled.foldl (fun us n => us.dropWhile (fun v => decide (∀ a, v.anchor = some a → a ≤ n)))
    (if 32 < h.length + 1 then (h ++ [u]).drop 1 else h ++ [u])

/-- The stroke at the front of those handed over has been taken as one unit, the entry `e` placed at `p`: the unit entered the history, which
was then pruned at the lines settled, and the carry state is that of the entry; nothing else of the Translator has changed (R102, R104, R105,
R109). -/
def UnitEntered (e : DictEntry) (k : Stroke) (p : Placement) (settled : List Nat) (s t : State) : Prop :=
  t.trans = { s.trans with
    handed := s.trans.handed.drop 1
    carry := { cap := e.fmt.capNext, attach := e.fmt.attachRight, glue := e.fmt.glue }
    history := historyWith
      { strokes := [{ seq := k.seq, press := k.press, cls := k.cls }], kind := .entry, text := e.text, fmt := e.fmt, cls := k.cls
        before := s.trans.carry, placement := some p, anchor := some p.serial } settled s.trans.history }

/-! ## Passes -/

/-- A pass does not wait on these strokes: it is a flush pass, there are 6 of them, or they are not extendable (R95, step 2; R98). -/
def PassGoes (d : Dict) (flush : Bool) (ks : List TStroke) : Prop :=
  flush = true ∨ 6 ≤ ks.length ∨ extendable d (ks.map (·.press)) = false

/-- The front of `k` strokes resolves to no entry. -/
def FrontFails (d : Dict) (ks : List TStroke) (k : Nat) : Prop := (resolve d ((ks.take k).map (·.press))).entry = none

/-- The units a pass forms from the strokes of a lookahead, and what remains waiting: step by step the longest front that resolves, or an
untranslate of the oldest stroke where none does (R95, R96, R98, R101). -/
inductive PassForms (d : Dict) (flush : Bool) : List TStroke → List Formed → List TStroke → Prop where
  | ends : PassForms d flush [] [] []
  | waits (ks : List TStroke) : ks ≠ [] → ¬PassGoes d flush ks → PassForms d flush ks [] ks
  | entry (ks : List TStroke) (k : Nat) (e : DictEntry) (us : List Formed) (rest : List TStroke) :
      PassGoes d flush ks → 0 < k → k ≤ ks.length → (resolve d ((ks.take k).map (·.press))).entry = some e →
      (∀ j, k < j → j ≤ ks.length → FrontFails d ks j) → PassForms d flush (ks.drop k) us rest →
      PassForms d flush ks ({ strokes := ks.take k, kind := .entry, text := e.text, fmt := e.fmt } :: us) rest
  | untranslate (b : TStroke) (bs : List TStroke) (us : List Formed) (rest : List TStroke) :
      PassGoes d flush (b :: bs) → (∀ j, 0 < j → j ≤ bs.length + 1 → FrontFails d (b :: bs) j) → PassForms d flush bs us rest →
      PassForms d flush (b :: bs) ({ strokes := [b], kind := .untranslate, text := writtenForm b.press, fmt := Fmt.none } :: us) rest

/-- The carry state after units placed one after another (R109). -/
def carryThrough (c : Carry) (us : List Formed) : Carry := us.foldl (fun c u => carryAfter c u.text u.fmt) c

/-- The records of units placed one after another from a carry state, without placement and anchor (R102, R103, R108). -/
def unitsFrom : Carry → List Formed → List TUnit
  | _, [] => []
  | c, u :: us =>
    { strokes := u.strokes, kind := u.kind, text := if c.cap then capitalize u.text else u.text, fmt := u.fmt, cls := unitClass u.strokes
      before := c, placement := none, anchor := none } :: unitsFrom (carryAfter c u.text u.fmt) us

/-- A pass that formed `us`, from the carry state `c` and the history `h`, has left `rest` in the lookahead; the carry state is the one after the
units, and the history is made of the units of `h` and then these, but for some that have left it from the oldest end (R95, R96, R102, R104,
R105, R109). -/
def PassLeft (us : List Formed) (rest : List TStroke) (c : Carry) (h : List TUnit) (t : State) : Prop :=
  t.trans.lookahead = rest ∧ t.trans.carry = carryThrough c us ∧ (us = [] → t.trans.history = h) ∧
    t.trans.history.map (fun u => { u with placement := none, anchor := none }) <:+
      h.map (fun u => { u with placement := none, anchor := none }) ++ unitsFrom c us

/-- The resolution timer after an event that left `rest` where `before` stood (R97). -/
def TimerFollows (before rest : List TStroke) (s t : State) : Prop :=
  t.trans.timer =
    if rest = before then s.trans.timer
    else if rest = [] ∨ s.trans.setting = 0 then none else some (s.now + s.trans.setting)

/-- Each unit is one word of the class, with no flag, and all of them fit the open line with a separator before each, under a clear carry state
(R108, R122, R123). -/
def WordsFit (us : List Formed) (n : Nat) (l : Line) (s : State) : Prop :=
  s.trans.carry = { cap := false, attach := false, glue := false } ∧ s.lines.openLine = some n ∧ findLine s.lines.records n = some l ∧
    l.state = .opn ∧ (∀ u ∈ us, u.text ≠ [] ∧ 0x20#8 ∉ u.text ∧ u.fmt = Fmt.none ∧ unitClass u.strokes = l.cls) ∧
    l.text.length + (us.map (fun u => u.text.length + 1)).sum ≤ s.lines.width

/-- The text of a line and the words after it, each behind a separator (R123). -/
def textWith (us : List Formed) (l : Line) : List Byte := l.text ++ us.flatMap (fun u => 0x20#8 :: u.text)

/-- The first and the last stroke sequence of a unit (R106). -/
def unitEnds (u : Formed) : Nat × Nat := (((u.strokes.head?).map (·.seq)).getD 0, ((u.strokes.getLast?).map (·.seq)).getD 0)

/-- The records of words placed one after another in line `n` from a column on (R102, R108). -/
def wordUnits (n : Nat) : Nat → List Formed → List TUnit
  | _, [] => []
  | c, u :: us =>
    { strokes := u.strokes, kind := u.kind, text := u.text, fmt := u.fmt, cls := unitClass u.strokes
      before := { cap := false, attach := false, glue := false }
      placement := some { serial := n, column := c, count := u.text.length + 1, opening := .continued }
      anchor := some n } :: wordUnits n (c + (u.text.length + 1)) us

/-- The words stand at the end of the open line, each a revision and a run more, and their units have entered the history with their placements
(R102, R104, R123, R127). -/
def WordsJoined (us : List Formed) (n : Nat) (l : Line) (s t : State) : Prop :=
  t.lines.openLine = some n ∧
    t.trans.history = (wordUnits n l.text.length us).foldl (fun h u => historyWith u [] h) s.trans.history ∧
    ∃ x, findLine t.lines.records n = some x ∧ x.text = textWith us l ∧ x.state = .opn ∧ x.cls = l.cls ∧
      x.revision = us.foldl (fun r _ => if r < 65535 then r + 1 else 65535) l.revision ∧
      x.runs.map (fun r => (r.first, r.last)) = l.runs.map (fun r => (r.first, r.last)) ++ us.map unitEnds

/-- What becomes of the text of a pass's units, be they of entries or untranslates: words that fit join the open line, and a single word with
no line open stands alone in a line opened FORCED (R102, R104, R123, R125, R127). -/
def UnitsPlaced (us : List Formed) (s t : State) : Prop :=
  (∀ n l, WordsFit us n l s → WordsJoined us n l s t) ∧
  ∀ u, us = [u] → s.lines.openLine = none → u.text ≠ [] → 0x20#8 ∉ u.text → u.fmt.newLine = false → s.trans.carry.cap = false →
    u.text.length ≤ s.lines.width → s.lines.counter < 4294967295 → s.lines.records.length < 4096 →
    findLine s.lines.records (s.lines.counter + 1) = none →
    WordOpened { key := [], text := u.text, fmt := u.fmt } (unitClass u.strokes) (unitEnds u).1 (unitEnds u).2 s t ∧
      t.trans.history = historyWith
        { strokes := u.strokes, kind := u.kind, text := u.text, fmt := u.fmt, cls := unitClass u.strokes, before := s.trans.carry
          placement := some { serial := s.lines.counter + 1, column := 0, count := u.text.length, opening := .forced }
          anchor := some (s.lines.counter + 1) } [] s.trans.history

/-! ## FnTX -/

/-- The feed holds FnTX at the idle level, which is high (R161, R185; 11_frame_and_record_formats.md, Signals and Supplies). -/
def TxIdle (s : State) (f : Fin 4) : Prop := (fnTx s f).map TxBit.level = [some true]

/-! ## Health -/

/-- One link has been told a feed's current health code `h`: where it is the `old` one nothing is told; else the link's latched code is the
lower of the two, and FEED_ALERT is posted for RECEIVER_ABSENT, STALLED and OUT_OF_STEP (R181, R182). -/
def HealthTold (f : Fin 4) (old h : Health) (k k' : LinkState) : Prop :=
  (h = old → k' = k) ∧
  (h ≠ old → k' = { k with
    latched := k.latched.set f (if h.code < (k.latched.get f).code then h else k.latched.get f)
    attn := if h = .receiverAbsent ∨ h = .stalled ∨ h = .outOfStep then latch .feedAlert k.attn else k.attn })

/-! ## Attention flags -/

/-- Every flag latched on a link in `s` is latched on it in `t` (R209, R210). -/
def FlagsKept (s t : State) : Prop := ∀ l : Link, (s.link l).attn &&& (t.link l).attn = (s.link l).attn

/-- The commands that may empty a latch set: the resets, the fetch that can bring one (R68), and Read Attention (R209, R214). -/
def mayClearFlags : Instr → Bool
  | .powerOn | .rstnAssert | .resetPartTimeout => true
  | .fetch _ _ => true
  | .readAttention _ _ _ => true
  | _ => false

end Sys2Proof.Machine
end

