-- ==== Sys2Proof/Certificates/Slice0/Obligations.lean ====
section
/-! DEFINITION. The statements about the model, each a closed proposition for the provers. Their docstrings name the rules of spec/ they
formalise. -/

open Sys2Proof Sys2Proof.Machine

/-! ## The step -/

/-- A step takes the command at the front of the queue and executes it on the state with the queue's rest. That the commands wait in one queue,
first in first out, is the model's own choice (log entry 29): spec/ has each block take its events whole and one at a time, and where two
arrive together, either first (R28, R190). -/
def Obligations.StepTakesFrontCommand : Prop :=
  ∀ (c : Instr) (rest : List Instr) (s : State),
    step { s with pending := c :: rest } = exec c { s with pending := rest }

/-- On an empty queue a millisecond passes: the session clock counts it in LIVE, RECESS and CLOSING and holds at its top (R58). That the empty
queue is the tick is the model's choice (log entry 1). -/
def Obligations.EmptyQueuePassesOneMillisecond : Prop :=
  ∀ s : State, s.pending = [] →
    step s = .next { s with
      now := s.now + 1
      session := { s.session with
        clock :=
          if s.session.st = .live ∨ s.session.st = .recess ∨ s.session.st = .closing then
            (if s.session.clock < 4294967295 then s.session.clock + 1 else 4294967295)
          else s.session.clock } }

/-! ## Resets and recovery -/

/-- After POWER_ON every block stands as its own reset table says for a cold reset, SBAR and FGATE3 are sampled, the pins, the time and the
waiting commands stay, and so does the memory but for the slot of a transfer that the power-on cuts (R22, R53, R56, R91, R118, R142, R155,
R185, R198, R214). The model's own are: the bytes that a cut transfer leaves in its slot (log entry 4), the record of the bytes sent on data
out, which stays (log entry 25), the values of the journal's counters while START lasts (log entry 27), and what a power-on keeps outside the
part (log entry 36). -/
def Obligations.PowerOnGivesTheColdState : Prop :=
  ∀ s : State,
    exec .powerOn s = .next { State.reset with
      memory := (cutTransfer s).memory
      events := (cutTransfer s).events
      cls := { bench := .opn, sbar := s.pins.sbar, timer := none, setting := 20
               effective := if s.pins.sbar then .sidebar else .opn }
      feeds := { ctx := Quad.const Feed.cold, gate := !s.pins.fgate3 }
      reporter := { State.reset.reporter with fetched := s.reporter.fetched }
      bench := { State.reset.bench with fetched := s.bench.fetched }
      pins := s.pins
      now := s.now
      pending := s.pending }

/-- A reset reaches the attached memory through the transfer it cuts alone: every other slot reads as before, and with no write or header
clear running the memory is as it was (R53, R54); so also with the FETCH that brings the reset of a Reset Part. What reaches the slot of the cut
transfer is open (log entry 4). -/
def Obligations.ResetCutsOnlyTheRunningTransfer : Prop :=
  ∀ (s t : State), Memory.wf s.memory →
    (exec .powerOn s = .next t ∨ exec .rstnAssert s = .next t ∨ exec .resetPartTimeout s = .next t ∨
      ∃ n, exec (.fetch .reporter n) s = .next t) →
      (∀ i slot a, s.journal.port = .write i slot → a ≠ slot → t.memory.read a = s.memory.read a) ∧
      (∀ slot seq a, s.journal.port = .reporter (.clear slot seq) → a ≠ slot → t.memory.read a = s.memory.read a) ∧
      (∀ slot seq, s.journal.port = .reporter (.read slot seq) → t.memory = s.memory) ∧
      (s.journal.port = .idle → t.memory = s.memory)

/-- What a warm reset keeps and what it sets, for an assertion of RSTN, for a Reset Part whose 100 ms have passed and for the FETCH that reads the
whole response of a Reset Part: among the rest it keeps every conditioning record, the chord timing and a zeroing result already held, and of
the journal the BAD slots and the block close interval alone, with no timer, no transfer, nothing waiting and no count left, and every feed OFF with FnTX at its
idle level, high (R23, R24, R54,
R56, R68, R91, R118, R142, R155, R185, R198, R214). The model's own are: the scan's place (log entry 8), the record of the bytes sent on data
out, which stays as the last transfer left it (log entry 25), the journal's counters while START lasts (log entry 27), and that SBAR and
FGATE3 are sampled at the assertion of RSTN as well as at its release (log entry 40). -/
def Obligations.WarmResetKeepsTheSettings : Prop :=
  ∀ (s : State) (c : Instr) (cause : ResetCause),
    (c = .rstnAssert ∧ cause = .rstn ∧ s.pins.rstnHeld = false) ∨
      (c = .resetPartTimeout ∧ cause = .resetPart ∧ ∃ e, s.session.resetPartDue = some e ∧ e ≤ s.now) ∨
      (cause = .resetPart ∧ s.pins.rstnHeld = false ∧ s.session.resetPartDue ≠ none ∧
        ∃ n r, c = .fetch .reporter n ∧ s.reporter.exch = .ready r ∧ r.size ≤ n) →
    ∃ t, exec c s = .next t ∧
      t.ksu.keys = s.ksu.keys.map (fun k =>
        { cond := k.cond, st := .up, count := 0, ignore := false, touched := false, depth := 0 }) ∧
      t.ksu.pressCount = s.ksu.pressCount ∧ t.ksu.releaseCount = s.ksu.releaseCount ∧ t.ksu.hysteresis = s.ksu.hysteresis ∧
      t.ksu.holdLimit = s.ksu.holdLimit ∧ t.ksu.scanInterval = s.ksu.scanInterval ∧
      t.ksu.scanPos = 0 ∧ t.ksu.zeroing = none ∧
      t.ksu.zeroResult = (if s.ksu.zeroing = none then s.ksu.zeroResult else .abandoned) ∧
      t.chords = { chord := none, strokes := 0 } ∧
      t.session = { st := .start, number := 0, clock := 0, recesses := 0, cause := cause, resetPartDue := none } ∧
      t.journal = {
        slots := s.journal.slots.filter (fun p => p.2 = .bad), buffers := Quad.const .free, queue := [], cond := .normal
        missedStrokes := 0, missedOther := 0, firstMissed := none, nextEntry := 1, nextBlock := 1, blockSpent := false
        lastSlot := 2047, failures := 0, failedClears := 0, restartPending := false, lastStored := 0, corruptFound := 0
        interval := s.journal.interval, intervalTimer := none, port := .idle, waiting := none, cursor := 0 } ∧
      t.dict.job = s.dict.job ∧ t.dict.groupNumber = s.dict.groupNumber ∧ t.dict.group = none ∧
      t.dict.resetDiscard = s.dict.group.map List.length ∧
      (s.dict.mainState = .ready →
        t.dict.mainState = .ready ∧ t.dict.main = s.dict.main ∧ t.dict.poolUse = s.dict.poolUse) ∧
      (s.dict.mainState ≠ .ready → t.dict.mainState = .empty ∧ t.dict.main = [] ∧ t.dict.poolUse = 0) ∧
      t.trans = { lookahead := [], history := [], carry := { cap := false, attach := false, glue := false }, timer := none
                  setting := s.trans.setting, handed := [], notices := 0 } ∧
      t.lines = { records := [], counter := 0, nextPage := 1, nextLine := 1, openLine := none
                  width := s.lines.width, pageLen := s.lines.pageLen, settle := s.lines.settle } ∧
      t.cls = { bench := .opn, sbar := s.pins.sbar, timer := none, setting := s.cls.setting
                effective := if s.pins.sbar then .sidebar else .opn } ∧
      t.feeds.gate = !s.pins.fgate3 ∧
      (∀ f, feed t f = Feed.atReset (feed s f).audience (feed s f).rate (feed s f).backfill (feed s f).idleInterval
        (feed s f).stallTime) ∧
      (∀ f, TxIdle t f) ∧
      t.marks = { records := [], lastId := 0 } ∧
      t.reporter = { exch := .idle, discard := false, attn := 1#20, latched := Quad.const .notEnabled, present := true, timer := none
                     presenceTime := s.reporter.presenceTime, fetched := t.reporter.fetched } ∧
      ((∀ n, c ≠ .fetch .reporter n) → t.reporter.fetched = s.reporter.fetched) ∧
      (∀ n r, c = .fetch .reporter n → s.reporter.exch = .ready r → t.reporter.fetched =
        r.bytes (s.reporter.attn ≠ 0) s.reporter.discard ++ List.replicate (n - r.size) 0#8) ∧
      t.bench = { exch := .idle, discard := false, attn := 1#20, latched := Quad.const .notEnabled, present := true, timer := none
                  presenceTime := s.bench.presenceTime, fetched := s.bench.fetched } ∧
      t.pins = { s.pins with rstnHeld := if c = .rstnAssert then true else s.pins.rstnHeld } ∧
      t.now = s.now ∧ t.pending = s.pending

/-- A warm reset during zeroing abandons it: no offset changes, the result is ABANDONED with an empty list, and RESET_DONE is the only flag; a
cold reset leaves the result NONE (R14). -/
def Obligations.ResetAbandonsZeroing : Prop :=
  ∀ (s : State) (z : Zeroing), s.ksu.zeroing = some z →
    (s.pins.rstnHeld = false →
      ∃ t, exec .rstnAssert s = .next t ∧ t.ksu.zeroing = none ∧ t.ksu.zeroResult = .abandoned ∧
        t.ksu.keys.map (·.cond) = s.ksu.keys.map (·.cond) ∧ zeroField t.ksu.zeroResult = [2#8, 0#8] ∧
        t.reporter.attn = 1#20 ∧ t.bench.attn = 1#20) ∧
    (∀ e, s.session.resetPartDue = some e → e ≤ s.now →
      ∃ t, exec .resetPartTimeout s = .next t ∧ t.ksu.zeroing = none ∧ t.ksu.zeroResult = .abandoned ∧
        t.ksu.keys.map (·.cond) = s.ksu.keys.map (·.cond) ∧ zeroField t.ksu.zeroResult = [2#8, 0#8] ∧
        t.reporter.attn = 1#20 ∧ t.bench.attn = 1#20) ∧
    ∃ t, exec .powerOn s = .next t ∧ t.ksu.zeroing = none ∧ t.ksu.zeroResult = .none

/-- The release of a held RSTN samples SBAR and FGATE3 and changes nothing else; with RSTN not held nothing occurs (R56, R155, R185). That a
release of an RSTN not held does not occur is the model's choice (log entry 2). -/
def Obligations.RstnReleaseSamplesSbarAndGate : Prop :=
  ∀ s : State,
    (s.pins.rstnHeld = true →
      exec .rstnRelease s = .next { s with
        pins := { s.pins with rstnHeld := false }
        cls := { bench := .opn, sbar := s.pins.sbar, timer := none, setting := s.cls.setting
                 effective := if s.pins.sbar then .sidebar else .opn }
        feeds := { s.feeds with gate := !s.pins.fgate3 } }) ∧
    (s.pins.rstnHeld = false → exec .rstnRelease s = .next s)

/-- A recovery read classifies the next slot that is not BAD: BAD where a read fails under a header that could be valid, FREE under a header
that is not, STORED or STORED-CORRUPT by the CRC; the memory is not written (R50). How the device's answer stands in the command is the
model's choice (log entry 5). -/
def Obligations.RecoveryReadClassifiesTheSlot : Prop :=
  ∀ (r : RecoveryRead) (s : State) (slot : Nat), s.session.st = .start → s.pins.rstnHeld = false →
    nextRead s.journal.slots s.journal.cursor = some slot →
    exec (.recoverySlotRead r) s = .next { s with journal := { s.journal with
      cursor := slot + 1
      slots :=
        match r with
        | .headerFailed => sparsePut slot .bad s.journal.slots
        | .restFailed =>
          if headerValid (s.memory.read slot) then sparsePut slot .bad s.journal.slots else sparseDrop slot s.journal.slots
        | .asHeld =>
          if headerValid (s.memory.read slot) then
            if crcGood (s.memory.read slot) then sparsePut slot (.stored (headerInfo (s.memory.read slot))) s.journal.slots
            else sparsePut slot (.corrupt (headerInfo (s.memory.read slot))) s.journal.slots
          else sparseDrop slot s.journal.slots
        | .altered bytes =>
          if headerValid (fitSlot bytes) then
            if crcGood (fitSlot bytes) then sparsePut slot (.stored (headerInfo (fitSlot bytes))) s.journal.slots
            else sparsePut slot (.corrupt (headerInfo (fitSlot bytes))) s.journal.slots
          else sparseDrop slot s.journal.slots } }

/-- When every slot that is not BAD has been classified, recovery resolves duplicates and sets the counters, the session number is the highest
found, the state is STANDBY, both presence windows of 15,000 ms start and SESSION_STATE is posted to both links (R51, R56, R66, R211). That
the number of STORED-CORRUPT slots is taken before duplicates are resolved is the model's reading (log entry 12). -/
def Obligations.RecoveryCompleteEntersStandby : Prop :=
  ∀ s : State, s.session.st = .start → s.pins.rstnHeld = false → nextRead s.journal.slots s.journal.cursor = none →
    highestOf (·.seq) (storedBlocks (dedupe s.journal.slots)) < 4294967295 →
    highestOf (fun i => i.firstEntry + i.count - 1) (storedBlocks (dedupe s.journal.slots)) < 4294967295 →
    exec .recoveryComplete s = .next { s with
      journal := { s.journal with
        slots := dedupe s.journal.slots
        nextBlock := highestOf (·.seq) (storedBlocks (dedupe s.journal.slots)) + 1
        nextEntry := highestOf (fun i => i.firstEntry + i.count - 1) (storedBlocks (dedupe s.journal.slots)) + 1
        blockSpent := false
        lastSlot := match newestStored (dedupe s.journal.slots) with
          | some p => p.1
          | none => 2047
        lastStored := highestOf (·.seq) (storedBlocks (dedupe s.journal.slots))
        corruptFound := corruptSlots s.journal.slots
        failures := 0
        cond := .normal
        restartPending := true }
      session := { s.session with
        st := .standby, number := highestOf (·.session) (storedBlocks (dedupe s.journal.slots)) }
      reporter := { s.reporter with timer := some (s.now + 15000), attn := latch .sessionState s.reporter.attn }
      bench := { s.bench with timer := some (s.now + 15000), attn := latch .sessionState s.bench.attn } }

/-! ## Key sensing and strokes -/

/-- A sample goes to the key at the scan's place: it stores the conditioned depth, steps that key's machine and moves the scan on; no other
key's state, count, depth or conditioning changes, nor do the dictionary, the lines, the feeds, the marks, the class or the memory. A key that
becomes DOWN in LIVE without the ignore mark opens a chord or joins the open one; one that becomes DOWN outside LIVE takes the ignore mark, and
one that carries it stays out of the chord until it reaches UP. A sample in UP or PRESSING at or past a light threshold above 0 marks the key
light-touched while a chord is open. A STUCK key comes UP after its release run and touches no chord. While a zeroing runs the raw sample is
added to the key's sum, its count rises by 1, and its minimum and maximum follow, each the first sample at the first, until the key has 64 (R1,
R2, R7, R8, R9, R10, R11, R12, R15, R16). That the ignore mark and STUCK are read as the sample found them is the model's reading (log entry
9), and so is that a zeroing begins with the next sample of KS0 (log entry 8). -/
def Obligations.KeySampleStepsOneKey : Prop :=
  ∀ (raw : BitVec 12) (s : State), s.pins.rstnHeld = false → s.ksu.keys.length = 23 → s.ksu.scanPos < 23 →
    ∃ t, exec (.keySample raw) s = .next t ∧
      t.ksu.scanPos = (s.ksu.scanPos + 1) % 23 ∧
      (keyAt t s.ksu.scanPos).depth =
        (let k := keyAt s s.ksu.scanPos
         let travel : Int := (raw.toNat : Int) - (48 + k.cond.offset)
         if travel ≤ 0 then 0 else min 1023 (travel.toNat * k.cond.gain / 64)) ∧
      (keyAt t s.ksu.scanPos).st =
        ((keyAt s s.ksu.scanPos).step s.ksu.pressCount s.ksu.releaseCount s.ksu.hysteresis
          (conditionDepth (keyAt s s.ksu.scanPos).cond.offset (keyAt s s.ksu.scanPos).cond.gain raw.toNat)).1.st ∧
      (∀ i, (keyAt t i).cond = (keyAt s i).cond) ∧
      (∀ i, i ≠ s.ksu.scanPos → (keyAt t i).st = (keyAt s i).st ∧ (keyAt t i).count = (keyAt s i).count ∧
        (keyAt t i).depth = (keyAt s i).depth) ∧
      (∀ (k : Key) (d : Nat) (r : Key × KeyMove), k = keyAt s s.ksu.scanPos → d = conditionDepth k.cond.offset k.cond.gain raw.toNat →
        r = k.step s.ksu.pressCount s.ksu.releaseCount s.ksu.hysteresis d →
        (r.2 = .wentDown → s.session.st = .live → k.ignore = false → s.chords.chord = none →
          t.chords = { s.chords with chord := some {
            press := BitVec.twoPow 23 s.ksu.scanPos, start := s.session.clock, held := false, stuckExcluded := false
            hold := some (s.now + s.ksu.holdLimit) } } ∧
          ∀ j, (keyAt t j).touched = false) ∧
        (∀ c, r.2 = .wentDown → s.session.st = .live → k.ignore = false → s.chords.chord = some c →
          t.chords = { s.chords with chord := some { c with press := c.press ||| BitVec.twoPow 23 s.ksu.scanPos } }) ∧
        (r.2 = .wentDown → s.session.st ≠ .live → (keyAt t s.ksu.scanPos).ignore = true ∧ t.chords = s.chords) ∧
        (r.2 = .wentDown → k.ignore = true → (keyAt t s.ksu.scanPos).ignore = true ∧ t.chords = s.chords) ∧
        (k.st ≠ .up → r.1.st = .up → (keyAt t s.ksu.scanPos).ignore = false) ∧
        (s.chords.chord ≠ none → t.chords.chord ≠ none → (r.1.st = .up ∨ r.1.st = .pressing) → 0 < k.cond.light → k.cond.light ≤ d →
          k.ignore = false → k.st ≠ .stuck → (keyAt t s.ksu.scanPos).touched = true) ∧
        ((k.ignore = true ∨ k.st = .stuck ∨ k.cond.light = 0 ∨ d < k.cond.light) → (keyAt t s.ksu.scanPos).touched = true →
          k.touched = true) ∧
        (k.st = .stuck → t.chords = s.chords ∧
          (releaseThreshold k.cond.press s.ksu.hysteresis ≤ d →
            (keyAt t s.ksu.scanPos).st = .stuck ∧ (keyAt t s.ksu.scanPos).count = 0) ∧
          (d < releaseThreshold k.cond.press s.ksu.hysteresis → k.count + 1 < s.ksu.releaseCount →
            (keyAt t s.ksu.scanPos).st = .stuck ∧ (keyAt t s.ksu.scanPos).count = k.count + 1) ∧
          (d < releaseThreshold k.cond.press s.ksu.hysteresis → s.ksu.releaseCount ≤ k.count + 1 →
            (keyAt t s.ksu.scanPos).st = .up ∧ (keyAt t s.ksu.scanPos).count = 0))) ∧
      (s.ksu.zeroing = none → t.ksu.zeroing = none) ∧
      (∀ z, s.ksu.zeroing = some z →
        (z.begun = false → s.ksu.scanPos ≠ 0 → t.ksu.zeroing = some z) ∧
        (z.begun = true ∨ s.ksu.scanPos = 0 → ∃ z', t.ksu.zeroing = some z' ∧ z'.begun = true ∧ z'.accs.length = z.accs.length ∧
          (∀ i, i ≠ s.ksu.scanPos → z'.accs[i]? = z.accs[i]?) ∧
          ∀ a, z.accs[s.ksu.scanPos]? = some a → z'.accs[s.ksu.scanPos]? = some
            (if 64 ≤ a.count then a
             else if a.count = 0 then { sum := a.sum + raw.toNat, count := 1, min := raw.toNat, max := raw.toNat }
             else { sum := a.sum + raw.toNat, count := a.count + 1, min := min a.min raw.toNat, max := max a.max raw.toNat }))) ∧
      t.dict = s.dict ∧ t.lines = s.lines ∧ t.feeds = s.feeds ∧ t.marks = s.marks ∧ t.cls = s.cls ∧ t.memory = s.memory ∧
      t.pins = s.pins ∧ t.now = s.now ∧ t.pending = s.pending

/-- Press confirmation: runs of cp samples at or above P bring a key from UP through PRESSING to DOWN, a lower sample breaks the run, and DOWN
is reported with the count at 0 (R7). -/
def Obligations.PressRunReachesDown : Prop :=
  ∀ (cp cr h : Nat) (k : Key) (d : Nat), 1 ≤ cp →
    (k.st = .up → k.cond.press ≤ d → cp = 1 →
      k.step cp cr h d = ({ k with depth := d, st := .down, count := 0 }, .wentDown)) ∧
    (k.st = .up → k.cond.press ≤ d → cp ≠ 1 →
      k.step cp cr h d = ({ k with depth := d, st := .pressing, count := 1 }, .stayed)) ∧
    (k.st = .pressing → k.cond.press ≤ d → k.count + 1 < cp →
      k.step cp cr h d = ({ k with depth := d, count := k.count + 1 }, .stayed)) ∧
    (k.st = .pressing → k.cond.press ≤ d → cp ≤ k.count + 1 →
      k.step cp cr h d = ({ k with depth := d, st := .down, count := 0 }, .wentDown)) ∧
    (k.st = .pressing → d < k.cond.press →
      k.step cp cr h d = ({ k with depth := d, st := .up, count := 0, ignore := false }, .stayed))

/-- Release confirmation: runs of cr samples below R bring a key from DOWN through RELEASING to UP, a higher sample breaks the run, and UP is
reported with the count at 0 (R8). -/
def Obligations.ReleaseRunReachesUp : Prop :=
  ∀ (cp cr h : Nat) (k : Key) (d : Nat), 1 ≤ cr →
    (k.st = .down → releaseThreshold k.cond.press h ≤ d → k.step cp cr h d = ({ k with depth := d }, .stayed)) ∧
    (k.st = .down → d < releaseThreshold k.cond.press h → cr = 1 →
      k.step cp cr h d = ({ k with depth := d, st := .up, count := 0, ignore := false }, .wentUp)) ∧
    (k.st = .down → d < releaseThreshold k.cond.press h → cr ≠ 1 →
      k.step cp cr h d = ({ k with depth := d, st := .releasing, count := 1 }, .stayed)) ∧
    (k.st = .releasing → d < releaseThreshold k.cond.press h → k.count + 1 < cr →
      k.step cp cr h d = ({ k with depth := d, count := k.count + 1 }, .stayed)) ∧
    (k.st = .releasing → d < releaseThreshold k.cond.press h → cr ≤ k.count + 1 →
      k.step cp cr h d = ({ k with depth := d, st := .up, count := 0, ignore := false }, .wentUp)) ∧
    (k.st = .releasing → releaseThreshold k.cond.press h ≤ d →
      k.step cp cr h d = ({ k with depth := d, st := .down, count := 0 }, .stayed))

/-- The sample by which the last held key of the press set reaches UP closes the chord: the stroke carries the next sequence, the chord's
start time, press set and flags, the light-touched keys outside the press set and the effective class; it is handed to the Translator, and its
entry joins the FILLING block. With the stroke counter at its top the chord is abandoned instead: no stroke, and the ignore mark on every key
in PRESSING, DOWN or RELEASING (R17, R19, R20, R21). -/
def Obligations.LastReleaseFormsTheStroke : Prop :=
  ∀ (raw : BitVec 12) (s : State) (c : Chord), s.pins.rstnHeld = false → s.ksu.keys.length = 23 → s.ksu.scanPos < 23 →
    s.chords.chord = some c → c.press.getLsbD s.ksu.scanPos = true →
    ((keyAt s s.ksu.scanPos).step s.ksu.pressCount s.ksu.releaseCount s.ksu.hysteresis
      (conditionDepth (keyAt s s.ksu.scanPos).cond.offset (keyAt s s.ksu.scanPos).cond.gain raw.toNat)).2 = .wentUp →
    (∀ j, j ≠ s.ksu.scanPos → c.press.getLsbD j = true → (keyAt s j).isHeld = false) →
    (4294967295 ≤ s.chords.strokes →
      ∃ t, exec (.keySample raw) s = .next t ∧ t.chords = { s.chords with chord := none } ∧ t.trans = s.trans ∧ t.journal = s.journal ∧
        (∀ j, j ≠ s.ksu.scanPos → (keyAt t j).ignore = ((keyAt s j).ignore || (keyAt s j).isActive)) ∧
        (keyAt t s.ksu.scanPos).ignore = false ∧ ∀ j, (keyAt t j).touched = false) ∧
    (s.chords.strokes < 4294967295 →
    ∃ t k, exec (.keySample raw) s = .next t ∧
      k = { seq := s.chords.strokes + 1, time := c.start, press := c.press
            shadow := touchedFrom 0 s.ksu.keys &&& ~~~c.press
            cls := s.cls.effective, held := c.held, stuckExcluded := c.stuckExcluded } ∧
      t.chords = { chord := none, strokes := s.chords.strokes + 1 } ∧
      t.trans = { s.trans with handed := s.trans.handed ++ [k] } ∧
      (∀ i b, s.journal.cond = .normal → findFilling s.journal.buffers = some (i, b) → b.entries.length < 63 →
        s.journal.nextEntry < 4294967295 →
        t.journal = { s.journal with
          buffers := s.journal.buffers.set i (.filling (b.add (strokeEntry k)))
          nextEntry := s.journal.nextEntry + 1 }) ∧
      (s.journal.cond = .suspended →
        t.journal.missedStrokes = (if s.journal.missedStrokes < 16777215 then s.journal.missedStrokes + 1 else 16777215) ∧
        t.journal.firstMissed = some (s.journal.firstMissed.getD k.seq)))

/-- The hold timer of the open chord expires: every held key of the press set becomes STUCK with count 0, KEY_STUCK is posted, and the chord
closes with both flags set, or without a stroke when its press set is left empty; with the stroke counter at its top it is abandoned, whatever
its press set (R9, R18, R19, R20). -/
def Obligations.HoldExpiryMakesKeysStuck : Prop :=
  ∀ (s : State) (c : Chord) (e : Nat), s.chords.chord = some c → c.hold = some e → e ≤ s.now →
    ∃ t, exec .holdTimerExpiry s = .next t ∧
      (∀ j, (keyAt t j).st = if c.press.getLsbD j ∧ (keyAt s j).isHeld = true then .stuck else (keyAt s j).st) ∧
      (∀ j, c.press.getLsbD j = true → (keyAt s j).isHeld = true → (keyAt t j).count = 0) ∧
      latchHolds .keyStuck t.reporter.attn = true ∧
      t.chords.chord = none ∧
      (∀ j, (keyAt t j).touched = false) ∧
      (notHeld c.press 0 s.ksu.keys = 0 → t.chords.strokes = s.chords.strokes ∧ t.trans = s.trans ∧ t.journal = s.journal) ∧
      (4294967295 ≤ s.chords.strokes → t.chords.strokes = s.chords.strokes ∧ t.trans = s.trans ∧ t.journal = s.journal ∧
        ∀ j, (keyAt t j).ignore = ((keyAt s j).ignore || (keyAt t j).isActive)) ∧
      (notHeld c.press 0 s.ksu.keys ≠ 0 → s.chords.strokes < 4294967295 →
        t.chords.strokes = s.chords.strokes + 1 ∧
        ∃ k : Stroke, t.trans = { s.trans with handed := s.trans.handed ++ [k] } ∧ k.press = notHeld c.press 0 s.ksu.keys ∧
          k.held = true ∧ k.stuckExcluded = true ∧ k.cls = s.cls.effective ∧ k.time = c.start) ∧
      SessionHeld s t ∧ OutsideKept s t ∧ t.dict = s.dict ∧ t.lines = s.lines ∧ t.feeds = s.feeds ∧ t.marks = s.marks ∧ t.cls = s.cls ∧ t.memory = s.memory

/-- A zeroing that has its 64th sample of the last key settles every key: a spread above 64 leaves the offset, else the offset is the rounded
mean less 48, at most 511; the result is COMPLETE and ZERO_DONE is posted (R13). -/
def Obligations.ZeroingSettlesTheOffsets : Prop :=
  ∀ (s : State) (z : Zeroing), s.ksu.zeroing = some z → z.finished = true →
    ∃ t, exec .zeroingComplete s = .next t ∧
      t = { s with ksu := t.ksu, reporter := { s.reporter with attn := latch .zeroDone s.reporter.attn } } ∧
      t.ksu = { s.ksu with keys := t.ksu.keys, zeroing := none, zeroResult := t.ksu.zeroResult } ∧
      t.ksu.keys.length = s.ksu.keys.length ∧
      ∀ (i : Nat) (k : Key) (a : ZeroAcc), s.ksu.keys[i]? = some k → z.accs[i]? = some a →
        (64 < a.max - a.min →
          t.ksu.keys[i]? = some k ∧ ∃ ks, t.ksu.zeroResult = .complete ks ∧ ks[i]? = some .unstable) ∧
        (a.max - a.min ≤ 64 → (a.sum + 32) / 64 ≤ 559 →
          t.ksu.keys[i]? = some { k with cond := { k.cond with offset := (((a.sum + 32) / 64 : Nat) : Int) - 48 } } ∧
          ∃ ks, t.ksu.zeroResult = .complete ks ∧ ks[i]? = some .updated) ∧
        (a.max - a.min ≤ 64 → 559 < (a.sum + 32) / 64 →
          t.ksu.keys[i]? = some { k with cond := { k.cond with offset := 511 } } ∧
          ∃ ks, t.ksu.zeroResult = .complete ks ∧ ks[i]? = some .clamped)

/-- Set Key Conditioning, Set Chord Timing and Zero Keys are carried out in STANDBY and RECESS while no zeroing runs, with every value clamped
to its range; they are refused BUSY during a zeroing, WRONG_STATE in LIVE and CLOSING, and a key index that names no key RANGE (R4, R5, R12).
The clamp list's bits (log entry 17) and the place of the RANGE check before the others (log entry 19) are the model's reading. -/
def Obligations.KeySettingsAreWrittenClamped : Prop :=
  ∀ (tag : Byte) (s : State), Takes .reporter s →
    ((s.session.st = .standby ∨ s.session.st = .recess) → s.ksu.zeroing = none →
      (∀ a : KeyCondArgs, (a.key < 23 ∨ a.key = 255) →
        exec (.setKeyConditioning .reporter tag (.fields a)) s =
          .next (answered .reporter .setKeyConditioning tag .ok (clampList (condClamps a))
            { touchPresence .reporter s with ksu := { s.ksu with keys := s.ksu.keys.mapIdx (fun i k =>
              if a.key = 255 ∨ i = a.key then
                { k with cond := { offset := clampInt (-512) 511 a.offset, gain := clampTo 16 127 a.gain
                                   press := clampTo 32 1000 a.press
                                   light := clampTo 0 (clampTo 32 1000 a.press - 1) a.light } }
              else k) } })) ∧
      (∀ a : ChordTimingArgs,
        exec (.setChordTiming .reporter tag (.fields a)) s =
          .next (answered .reporter .setChordTiming tag .ok (clampList (timingClamps a))
            { touchPresence .reporter s with ksu := { s.ksu with
              pressCount := clampTo 1 4 a.pressCount, releaseCount := clampTo 1 4 a.releaseCount
              hysteresis := clampTo 4 255 a.hysteresis, holdLimit := clampTo 250 5000 a.holdLimit
              scanInterval := clampTo 250 2000 a.scanInterval } })) ∧
      exec (.zeroKeys .reporter tag (.fields ())) s =
        .next (answered .reporter .zeroKeys tag .ok []
          { touchPresence .reporter s with ksu := { s.ksu with
            zeroing := some { begun := false, accs := List.replicate 23 { sum := 0, count := 0, min := 0, max := 0 } } } })) ∧
    (∀ st, ((s.session.st = .live ∨ s.session.st = .closing) ∧ st = .wrongState) ∨
        ((s.session.st = .standby ∨ s.session.st = .recess) ∧ s.ksu.zeroing ≠ none ∧ st = .busy) →
      exec (.zeroKeys .reporter tag (.fields ())) s =
        .next (answered .reporter .zeroKeys tag st [] (touchPresence .reporter s)) ∧
      (∀ a : KeyCondArgs, (a.key < 23 ∨ a.key = 255) →
        exec (.setKeyConditioning .reporter tag (.fields a)) s =
          .next (answered .reporter .setKeyConditioning tag st [] (touchPresence .reporter s))) ∧
      ∀ a : ChordTimingArgs,
        exec (.setChordTiming .reporter tag (.fields a)) s =
          .next (answered .reporter .setChordTiming tag st [] (touchPresence .reporter s))) ∧
    (∀ a : KeyCondArgs, 23 ≤ a.key → a.key ≠ 255 →
      exec (.setKeyConditioning .reporter tag (.fields a)) s =
        .next (answered .reporter .setKeyConditioning tag .range [] (touchPresence .reporter s)))

/-- Every command leaves no chord open outside LIVE, from every state that has none open there (R15, R19, R24). -/
def Obligations.ChordOpenOnlyInLive : Prop :=
  ∀ (s t : State), ChordInLive s → step s = .next t → ChordInLive t

/-! ## The journal -/

/-- A block write starts with the head of the queue and the first FREE slot after the last-assigned one, counting upward and wrapping from
2,047 to 0; the slot table and the memory do not change (R35). -/
def Obligations.WriteStartTakesTheNextFreeSlot : Prop :=
  ∀ (s : State) (i : Fin 4) (rest : List (Fin 4)) (b : Block) (held : Option Nat) (slot : Nat),
    s.journal.port = .idle → s.journal.cond.isFaulted = false → s.journal.queue = i :: rest →
    s.journal.buffers.get i = .queued b held → nextFree s.journal.slots s.journal.lastSlot = some slot →
    exec .blockWriteStart s = .next { s with journal := { s.journal with
      buffers := s.journal.buffers.set i (.writing b slot)
      queue := rest
      lastSlot := slot
      port := .write i slot } } ∧
    ∃ k, k < 2048 ∧ slot = (s.journal.lastSlot + 1 + k) % 2048 ∧ slotFree s.journal.slots slot = true ∧
      ∀ j, j < k → slotFree s.journal.slots ((s.journal.lastSlot + 1 + j) % 2048) = false

/-- A waiting reporter transfer starts on the idle port when no block write is ready; a ready block write goes first, and no header clear
starts while the journal is FAULTED (R34, R38). That a start which is not ready does not occur is the model's choice (log entry 2). -/
def Obligations.ReporterTransferYieldsToAWrite : Prop :=
  ∀ (s : State) (slot seq : Nat), s.journal.port = .idle →
    (writeReady s = false → s.journal.waiting = some (.read slot seq) →
      exec .reporterTransferStart s =
        .next { s with journal := { s.journal with port := .reporter (.read slot seq), waiting := none } }) ∧
    (writeReady s = false → s.journal.waiting = some (.clear slot seq) → s.journal.cond.isFaulted = false →
      exec .reporterTransferStart s =
        .next { s with journal := { s.journal with port := .reporter (.clear slot seq), waiting := none } }) ∧
    (s.journal.waiting = some (.clear slot seq) → s.journal.cond.isFaulted = true → exec .reporterTransferStart s = .next s) ∧
    (writeReady s = true → exec .reporterTransferStart s = .next s)

/-- A block write completes successfully: the memory holds the block, the slot is STORED with its sequence, session and entry count, the
failure count is 0, the buffer is FREE or, at the end of a suspension, FILLING with a GAP entry, the port is idle and BLOCK_STORED is posted,
and JOURNAL_LOW exactly where the FREE slots fall from 65 to 64; a CLOSING session whose last block this was reaches STANDBY (R36, R39, R40,
R43, R65). That the buffer becomes FREE in a FAULTED journal too, although R38 says no buffer frees from then on, is the model's choice (log
entry 41), and so is what a failed header clear has taken from the number that falls (log entry 43). -/
def Obligations.WriteCompletionStoresTheBlock : Prop :=
  ∀ (s : State) (i : Fin 4) (slot n : Nat) (b : Block),
    s.journal.port = .write i slot → s.journal.buffers.get i = .writing b n →
    ∃ t, exec (.blockWriteComplete true) s = .next t ∧
      t.memory = s.memory.write slot b.bytes ∧
      t.journal.slots = sparsePut slot
        (.stored { seq := b.seq, session := b.session, count := b.entries.length, firstEntry := b.firstEntry }) s.journal.slots ∧
      t.journal.failures = 0 ∧ t.journal.port = .idle ∧
      latchHolds .blockStored t.reporter.attn = true ∧
      (sparseRising s.journal.slots → slotFree s.journal.slots slot = true →
        latchHolds .journalLow t.reporter.attn =
          (latchHolds .journalLow s.reporter.attn || decide (freeSlots s.journal.slots = 65 + s.journal.failedClears))) ∧
      (s.journal.cond ≠ .suspended → t.journal = { s.journal with
        slots := t.journal.slots, failures := 0, port := .idle, buffers := s.journal.buffers.set i .free }) ∧
      (s.journal.cond = .suspended → findFilling s.journal.buffers = none → s.journal.blockSpent = false →
          s.journal.nextEntry < 4294967295 →
        t.journal.cond = .normal ∧ latchHolds .journalSuspended t.reporter.attn = true ∧
        latchHolds .journalSuspended t.bench.attn = true ∧ t.journal.missedStrokes = 0 ∧ t.journal.missedOther = 0 ∧
        ∃ b', t.journal.buffers.get i = .filling b' ∧ b'.seq = s.journal.nextBlock ∧ b'.incomplete = true ∧
          b'.entries = [{ kind := .gap, attrs := 0#8, seq := s.journal.firstMissed.getD 0, time := s.session.clock
                          fieldA := s.journal.missedStrokes, fieldB := s.journal.missedOther }]) ∧
      (s.session.st = .closing → s.journal.cond = .normal →
        (∀ j, j ≠ i → (s.journal.buffers.get j).code ≤ 1) → t.session.st = .standby) ∧
      (s.session.st ≠ .closing → t.session = s.session) ∧
      OutsideKept s t ∧ t.ksu = s.ksu ∧ t.chords = s.chords ∧ t.dict = s.dict ∧ t.lines = s.lines ∧ t.feeds = s.feeds ∧
      t.marks = s.marks ∧ t.cls = s.cls ∧ t.trans = s.trans

/-- A block write fails: the slot is BAD, the failure count is 1 more and the port idle; at the first failure the buffer is QUEUED again at
the head of the queue, its content unchanged, with the slot it was assigned; at the second the journal is FAULTED and JOURNAL_FAULT is posted. JOURNAL_LOW is posted exactly
where the FREE slots fall from 65 to 64. Only the failed slot's bytes may have changed (R26, R37, R38, R39). What a failed header clear has taken from
the number that falls is the model's choice (log entry 43). -/
def Obligations.WriteFailureMarksTheSlotBad : Prop :=
  ∀ (s : State) (i : Fin 4) (slot n : Nat) (b : Block),
    s.journal.port = .write i slot → s.journal.buffers.get i = .writing b n →
    ∃ t, exec (.blockWriteComplete false) s = .next t ∧
      t.journal.slots = sparsePut slot .bad s.journal.slots ∧
      t.journal.failures = s.journal.failures + 1 ∧ t.journal.port = .idle ∧
      (sparseRising s.journal.slots → slotFree s.journal.slots slot = true →
        latchHolds .journalLow t.reporter.attn =
          (latchHolds .journalLow s.reporter.attn || decide (freeSlots s.journal.slots = 65 + s.journal.failedClears))) ∧
      (Memory.wf s.memory → ∀ a, a ≠ slot → t.memory.read a = s.memory.read a) ∧
      (s.journal.failures = 0 → t.session = s.session ∧
        t.journal = { s.journal with
          slots := t.journal.slots, failures := 1, port := .idle
          buffers := s.journal.buffers.set i (.queued b (some slot)), queue := i :: s.journal.queue }) ∧
      SessionHeld s t ∧
      (1 ≤ s.journal.failures → s.journal.cond.isFaulted = false →
        t.journal.cond = .faulted .writeFailures ∧ t.journal.intervalTimer = none ∧
        latchHolds .journalFault t.reporter.attn = true ∧ t.journal.buffers = s.journal.buffers.set i (.queued b (some slot))) ∧
      OutsideKept s t ∧ t.ksu = s.ksu ∧ t.chords = s.chords ∧ t.dict = s.dict ∧ t.lines = s.lines ∧ t.feeds = s.feeds ∧
      t.marks = s.marks ∧ t.cls = s.cls ∧ t.trans = s.trans

/-- A block read ends, of the bytes held or of others the device delivers: the response carries marker 0 and the bytes with OK or CORRUPT by the
CRC, and the slot record, STORED or STORED-CORRUPT, follows the CRC; a failed read is answered CORRUPT with marker 1 alone and changes no record (R46, R218). How the device's answer stands in the command is the
model's choice (log entry 5). -/
def Obligations.ReadCompletionAnswersTheBlock : Prop :=
  ∀ (s : State) (slot seq : Nat) (code tag : Byte),
    s.journal.port = .reporter (.read slot seq) → s.reporter.exch = .executing code tag →
    (exec (.blockReadComplete .failed) s = .next { s with
      journal := { s.journal with port := .idle }
      reporter := { s.reporter with
        exch := .ready { code := code, tag := tag, status := .corrupt, payload := [1#8] } } }) ∧
    (∀ (r : SlotRead) (bytes : List Byte),
      ((r = .asHeld ∧ bytes = s.memory.read slot) ∨ (r = .altered bytes ∧ bytes.length = 1056)) →
      (∀ i, sparseGet s.journal.slots slot = some (.stored i) → crcGood bytes = true →
        exec (.blockReadComplete r) s = .next { s with
          journal := { s.journal with port := .idle }
          reporter := { s.reporter with exch := .ready { code := code, tag := tag, status := .ok, payload := 0#8 :: bytes } } }) ∧
      (∀ i, sparseGet s.journal.slots slot = some (.stored i) → crcGood bytes = false →
        exec (.blockReadComplete r) s = .next { s with
          journal := { s.journal with port := .idle, slots := sparsePut slot (.corrupt i) s.journal.slots }
          reporter := { s.reporter with exch := .ready { code := code, tag := tag, status := .corrupt, payload := 0#8 :: bytes } } }) ∧
      (∀ i, sparseGet s.journal.slots slot = some (.corrupt i) → crcGood bytes = true →
        exec (.blockReadComplete r) s = .next { s with
          journal := { s.journal with port := .idle, slots := sparsePut slot (.stored i) s.journal.slots }
          reporter := { s.reporter with exch := .ready { code := code, tag := tag, status := .ok, payload := 0#8 :: bytes } } }) ∧
      (∀ i, sparseGet s.journal.slots slot = some (.corrupt i) → crcGood bytes = false →
        exec (.blockReadComplete r) s = .next { s with
          journal := { s.journal with port := .idle }
          reporter := { s.reporter with exch := .ready { code := code, tag := tag, status := .corrupt, payload := 0#8 :: bytes } } }))

/-- A header clear ends: done, the header bytes are zeros, the slot FREE, the failure count 0 and the release answered OK; failed, the slot is
BAD, the count 1 more and the release answered OK, marked clear-failed; the fall of the number of FREE slots that R37 and R39 see in that posts
JOURNAL_LOW (R37, R39, R47). The byte of the clear-failed mark is the model's reading (log entry 16), and so is the number that falls where the
slot table's FREE slots stay as many (log entry 43). -/
def Obligations.HeaderClearFreesTheSlot : Prop :=
  ∀ (s : State) (slot seq : Nat) (code tag : Byte),
    s.journal.port = .reporter (.clear slot seq) → s.reporter.exch = .executing code tag →
    (∃ t, exec (.headerClearComplete true) s = .next t ∧
      t.memory = s.memory.write slot (List.replicate 32 0#8 ++ (s.memory.read slot).drop 32) ∧
      t.journal = { s.journal with slots := sparseDrop slot s.journal.slots, failures := 0, port := .idle } ∧
      t.reporter.exch = .ready { code := code, tag := tag, status := .ok, payload := [0#8] } ∧
      t = { s with memory := t.memory, journal := t.journal, reporter := t.reporter }) ∧
    (∃ t, exec (.headerClearComplete false) s = .next t ∧
      t.journal.slots = sparsePut slot .bad s.journal.slots ∧ t.journal.failures = s.journal.failures + 1 ∧
      t.journal.port = .idle ∧
      t.reporter.exch = .ready { code := code, tag := tag, status := .ok, payload := [1#8] } ∧
      t.journal.failedClears = s.journal.failedClears + 1 ∧
      (sparseRising s.journal.slots → slotFree s.journal.slots slot = false →
        latchHolds .journalLow t.reporter.attn =
          (latchHolds .journalLow s.reporter.attn || decide (freeSlots s.journal.slots = 65 + s.journal.failedClears))) ∧
      (Memory.wf s.memory → ∀ a, a ≠ slot → t.memory.read a = s.memory.read a) ∧
      (1 ≤ s.journal.failures → s.journal.cond.isFaulted = false → t.journal.cond = .faulted .writeFailures) ∧
      SessionHeld s t ∧ OutsideKept s t ∧ t.ksu = s.ksu ∧ t.chords = s.chords ∧ t.trans = s.trans ∧ t.dict = s.dict ∧
      t.lines = s.lines ∧ t.feeds = s.feeds ∧ t.marks = s.marks ∧ t.cls = s.cls)

/-- The block close interval expires: the FILLING block closes with reason INTERVAL, its close time and CRC set, and its buffer joins the tail
of the write queue; nothing else changes, and before its time nothing occurs (R31, R33). That an expiry before its time does not occur is the
model's choice (log entry 2). -/
def Obligations.IntervalClosesTheFillingBlock : Prop :=
  ∀ (s : State) (e : Nat), s.journal.intervalTimer = some e →
    (∀ i b, e ≤ s.now → findFilling s.journal.buffers = some (i, b) →
      ∃ b', exec .blockIntervalExpiry s = .next { s with journal := { s.journal with
          buffers := s.journal.buffers.set i (.queued b' none), queue := s.journal.queue ++ [i], intervalTimer := none } } ∧
        b' = { b with closeTime := s.session.clock, reason := some .interval, crc := b'.crc } ∧
        b'.crc = crc16 (b'.header ++ b'.body)) ∧
    (s.now < e → exec .blockIntervalExpiry s = .next s)

/-- Read and Release Journal Block wait for the memory port when they name a stored block (a release, the oldest) and are refused NOT_STORED,
NOT_FOUND, OUT_OF_ORDER or JOURNAL_FAULT otherwise; Close Journal Block closes the FILLING block with reason REQUEST (R45, R47, R48). The
payload layouts are the model's reading (log entry 16). -/
def Obligations.DrainRequestsAreTaken : Prop :=
  ∀ (tag : Byte) (s : State) (n : Nat), Takes .reporter s →
    (∀ slot i, n ≠ 0 → findStored s.journal.slots n = some (slot, i) →
      exec (.readJournalBlock .reporter tag (.fields n)) s =
        .next (executing .reporter .readJournalBlock tag
          { touchPresence .reporter s with journal := { s.journal with waiting := some (.read slot i.seq) } })) ∧
    (∀ slot i, oldestStored s.journal.slots = some (slot, i) →
      exec (.readJournalBlock .reporter tag (.fields 0)) s =
        .next (executing .reporter .readJournalBlock tag
          { touchPresence .reporter s with journal := { s.journal with waiting := some (.read slot i.seq) } })) ∧
    (n ≠ 0 → findStored s.journal.slots n = none →
      exec (.readJournalBlock .reporter tag (.fields n)) s =
        .next (answered .reporter .readJournalBlock tag
          (if inBuffer s.journal.buffers n = true then .notStored else .notFound) [] (touchPresence .reporter s))) ∧
    (oldestStored s.journal.slots = none →
      exec (.readJournalBlock .reporter tag (.fields 0)) s =
        .next (answered .reporter .readJournalBlock tag .notFound [] (touchPresence .reporter s))) ∧
    (s.journal.cond.isFaulted = false → findStored s.journal.slots n = none →
      exec (.releaseJournalBlock .reporter tag (.fields n)) s =
        .next (answered .reporter .releaseJournalBlock tag
          (if inBuffer s.journal.buffers n = true then .notStored else .notFound) [] (touchPresence .reporter s))) ∧
    (∀ slot i slot' old, s.journal.cond.isFaulted = false → findStored s.journal.slots n = some (slot, i) →
      oldestStored s.journal.slots = some (slot', old) →
      exec (.releaseJournalBlock .reporter tag (.fields n)) s =
        .next (if old.seq = n then
            executing .reporter .releaseJournalBlock tag
              { touchPresence .reporter s with journal := { s.journal with waiting := some (.clear slot n) } }
          else answered .reporter .releaseJournalBlock tag .outOfOrder [] (touchPresence .reporter s))) ∧
    (s.journal.cond.isFaulted = true →
      exec (.releaseJournalBlock .reporter tag (.fields n)) s =
        .next (answered .reporter .releaseJournalBlock tag .journalFault [] (touchPresence .reporter s))) ∧
    (∀ i b, s.journal.cond.isFaulted = false → findFilling s.journal.buffers = some (i, b) →
      exec (.closeJournalBlock .reporter tag (.fields ())) s =
        .next (answered .reporter .closeJournalBlock tag .ok (1#8 :: be 4 b.seq)
          { touchPresence .reporter s with journal := { s.journal with
            buffers := s.journal.buffers.set i (.queued (b.closed .request s.session.clock) none)
            queue := s.journal.queue ++ [i], intervalTimer := none } })) ∧
    (s.journal.cond.isFaulted = false → findFilling s.journal.buffers = none →
      exec (.closeJournalBlock .reporter tag (.fields ())) s =
        .next (answered .reporter .closeJournalBlock tag .ok [0#8] (touchPresence .reporter s))) ∧
    (s.journal.cond.isFaulted = true →
      exec (.closeJournalBlock .reporter tag (.fields ())) s =
        .next (answered .reporter .closeJournalBlock tag .journalFault [] (touchPresence .reporter s)))

/-- An append request: in NORMAL with a FILLING block of fewer than 63 entries the entry joins it and takes the entry sequence; the 64th entry
closes the block FULL; with no FILLING block a block is opened in the lowest FREE buffer, with the RESTART entry first where it is pending; the
last entry sequence there is, or a block to be opened when the last block sequence has been taken, makes the journal FAULTED. In NORMAL with
every buffer QUEUED or WRITING the journal is SUSPENDED with the entry counted alone; in SUSPENDED and FAULTED the entry is counted and
nothing else changes (R28, R29, R30, R31, R33, R38, R41, R42, R52). -/
def Obligations.AppendPutsOrCountsTheEntry : Prop :=
  ∀ (e : Entry) (s : State),
    (∀ i b, s.journal.cond = .normal → findFilling s.journal.buffers = some (i, b) → b.entries.length < 63 →
      s.journal.nextEntry < 4294967295 →
      append e s = { s with journal := { s.journal with
        buffers := s.journal.buffers.set i (.filling (b.add e)), nextEntry := s.journal.nextEntry + 1 } }) ∧
    (∀ i b, s.journal.cond = .normal → findFilling s.journal.buffers = some (i, b) → b.entries.length = 63 →
      s.journal.nextEntry < 4294967295 →
      append e s = { s with journal := { s.journal with
        buffers := s.journal.buffers.set i (.queued ((b.add e).closed .full s.session.clock) none)
        queue := s.journal.queue ++ [i], intervalTimer := none, nextEntry := s.journal.nextEntry + 1 } } ∧
      ((b.add e).closed .full s.session.clock).reason = some .full ∧
      ((b.add e).closed .full s.session.clock).closeTime = s.session.clock) ∧
    (∀ i b, s.journal.cond = .normal → findFilling s.journal.buffers = some (i, b) → b.entries.length < 63 →
      4294967295 ≤ s.journal.nextEntry →
      (append e s).journal.cond = .faulted .sequenceExhausted ∧ (append e s).journal.nextEntry = 4294967295 ∧
      (append e s).journal.buffers = s.journal.buffers.set i (.filling (b.add e)) ∧ (append e s).journal.intervalTimer = none ∧
      latchHolds .journalFault (append e s).reporter.attn = true) ∧
    (∀ i first b, s.journal.cond = .normal → findFilling s.journal.buffers = none → lowestFree s.journal.buffers = some i →
      s.journal.blockSpent = false →
      first = (if s.journal.restartPending then
          [{ kind := .restart, attrs := 0#8, seq := s.journal.lastStored, time := s.session.clock
             fieldA := s.session.cause.entryCode, fieldB := s.journal.corruptFound }]
        else []) →
      b = { seq := s.journal.nextBlock, session := s.session.number, firstEntry := s.journal.nextEntry
            incomplete := decide (e.kind = .gap ∧ first = []), restart := decide (first ≠ [] ∨ e.kind = .restart), reason := none
            openTime := s.session.clock, closeTime := 0
            firstStroke := if e.kind = .stroke then some e.seq else none
            lastStroke := if e.kind = .stroke then some e.seq else none
            entries := first ++ [e], crc := 0#16 } →
      s.journal.nextEntry + first.length < 4294967295 →
      append e s = { s with journal := { s.journal with
        buffers := s.journal.buffers.set i (.filling b)
        nextBlock := if s.journal.nextBlock < 4294967295 then s.journal.nextBlock + 1 else 4294967295
        blockSpent := decide (4294967295 ≤ s.journal.nextBlock)
        intervalTimer := some (s.now + s.journal.interval)
        nextEntry := s.journal.nextEntry + first.length + 1
        restartPending := false } } ∧
      s.journal.buffers.get i = .free ∧ ∀ j, j < i → s.journal.buffers.get j ≠ .free) ∧
    (∀ i, s.journal.cond = .normal → findFilling s.journal.buffers = none → lowestFree s.journal.buffers = some i →
      s.journal.blockSpent = true →
      (append e s).journal.cond = .faulted .sequenceExhausted ∧ (append e s).journal.buffers = s.journal.buffers ∧
      (append e s).journal.nextEntry = s.journal.nextEntry ∧ (append e s).journal.nextBlock = s.journal.nextBlock ∧
      (append e s).journal.missedStrokes = (if e.kind = .stroke then 1 else 0) ∧
      (append e s).journal.missedOther = (if e.kind = .stroke then 0 else 1) ∧
      latchHolds .journalFault (append e s).reporter.attn = true ∧ latchHolds .journalSuspended (append e s).reporter.attn = true ∧
      latchHolds .journalSuspended (append e s).bench.attn = true) ∧
    (s.journal.cond = .normal → findFilling s.journal.buffers = none → lowestFree s.journal.buffers = none →
      append e s = postBoth .journalSuspended { s with journal := { s.journal with
        cond := .suspended
        missedStrokes := if e.kind = .stroke then 1 else 0
        missedOther := if e.kind = .stroke then 0 else 1
        firstMissed := if e.kind = .stroke then some e.seq else none } }) ∧
    (s.journal.cond ≠ .normal →
      append e s = { s with journal := { s.journal with
        missedStrokes :=
          if e.kind = .stroke then (if s.journal.missedStrokes < 16777215 then s.journal.missedStrokes + 1 else 16777215)
          else s.journal.missedStrokes
        missedOther :=
          if e.kind = .stroke then s.journal.missedOther
          else (if s.journal.missedOther < 16777215 then s.journal.missedOther + 1 else 16777215)
        firstMissed := if e.kind = .stroke then some (s.journal.firstMissed.getD e.seq) else s.journal.firstMissed } })

/-- Every step keeps the attached memory and the slot table in their canonical form (R25; the form is the model's, log entries 3 and 38). -/
def Obligations.StoresStayCanonical : Prop :=
  ∀ (s t : State), StoresCanonical s → step s = .next t → StoresCanonical t

/-! ## The dictionary -/

/-- Begin Main Load is taken in STANDBY in every state of the tier but BUILDING: every main-tier entry is discarded, the entry count and the
pool use are 0, the tier is LOADING, no key is found in it, and the answer is OK; in BUILDING it is refused BUSY, in the other session states
WRONG_STATE (R75). -/
def Obligations.BeginMainLoadDiscardsTheMainTier : Prop :=
  ∀ (tag : Byte) (s : State), Takes .reporter s →
    (s.session.st = .standby → s.dict.mainState ≠ .building →
      ∃ d, exec (.beginMainLoad .reporter tag (.fields ())) s =
          .next (answered .reporter .beginMainLoad tag .ok [] { touchPresence .reporter s with dict := d }) ∧
        d = { s.dict with mainState := .loading, main := [], poolUse := 0 } ∧
        ∀ key, mainEntry d key = none) ∧
    (s.session.st = .standby → s.dict.mainState = .building →
      exec (.beginMainLoad .reporter tag (.fields ())) s =
        .next (answered .reporter .beginMainLoad tag .busy [] (touchPresence .reporter s))) ∧
    (s.session.st ≠ .standby →
      exec (.beginMainLoad .reporter tag (.fields ())) s =
        .next (answered .reporter .beginMainLoad tag .wrongState [] (touchPresence .reporter s)))

/-- Load Entries takes its entries one by one in order, each on what the one before it left, with the statuses of R76, End Main Load starts the
build, and the build's end, whatever the link and the session stand at, makes the tier READY and posts LOAD_DONE (R76, R77, R78). The payload layouts are the model's reading (log entry 16); that a build not running does not
complete is its choice (log entry 2). -/
def Obligations.MainLoadFillsAndBuildsTheTier : Prop :=
  ∀ (tag : Byte) (s : State),
    (∀ rs : List RawEntry, Takes .reporter s → s.session.st = .standby → s.dict.mainState = .loading → rs ≠ [] → rs.length ≤ 16 →
      (∀ r ∈ rs, ∀ k ∈ r.key, badSet k = false) →
      exec (.loadEntries .reporter tag (.fields rs)) s =
        .next (answered .reporter .loadEntries tag .ok
          (listField LoadResult.field (loadAll s.dict rs).2 ++ be 4 (loadAll s.dict rs).1.main.length
            ++ be 4 (loadAll s.dict rs).1.poolUse)
          { touchPresence .reporter s with dict := (loadAll s.dict rs).1 })) ∧
    (∀ (d : Dict) (r : RawEntry),
      (keyInvalid (dictEntryOf r).key = true → loadEntry d r = (d, { status := .keyInvalid, replaced := false, chars := 0 })) ∧
      (keyInvalid (dictEntryOf r).key = false → (40 < r.text.length ∨ (dictEntryOf r).fmt.suppress = true) →
        loadEntry d r = (d, { status := .range, replaced := false, chars := 0 })) ∧
      (keyInvalid (dictEntryOf r).key = false → r.text.length ≤ 40 → (dictEntryOf r).fmt.suppress = false →
        holdsKey d.main (dictEntryOf r).key = false → 131072 ≤ d.main.length →
        loadEntry d r = (d, { status := .tierFull, replaced := false, chars := replacedCount r.text })) ∧
      (keyInvalid (dictEntryOf r).key = false → r.text.length ≤ 40 → (dictEntryOf r).fmt.suppress = false →
        (holdsKey d.main (dictEntryOf r).key = true ∨ d.main.length < 131072) → 1572864 < d.poolUse + r.text.length →
        loadEntry d r = (d, { status := .poolFull, replaced := false, chars := replacedCount r.text })) ∧
      (keyInvalid (dictEntryOf r).key = false → r.text.length ≤ 40 → (dictEntryOf r).fmt.suppress = false →
        (holdsKey d.main (dictEntryOf r).key = true ∨ d.main.length < 131072) → d.poolUse + r.text.length ≤ 1572864 →
        loadEntry d r = ({ d with main := upsert (dictEntryOf r) d.main, poolUse := d.poolUse + r.text.length },
          { status := .ok, replaced := holdsKey d.main (dictEntryOf r).key, chars := replacedCount r.text }))) ∧
    (∀ (d : Dict) (r : RawEntry) (rs : List RawEntry),
      loadAll d [] = (d, []) ∧
      loadAll d (r :: rs) = ((loadAll (loadEntry d r).1 rs).1, (loadEntry d r).2 :: (loadAll (loadEntry d r).1 rs).2)) ∧
    (Takes .reporter s → s.session.st = .standby → s.dict.mainState = .loading →
      exec (.endMainLoad .reporter tag (.fields ())) s =
        .next (answered .reporter .endMainLoad tag .ok (be 4 s.dict.main.length ++ be 4 s.dict.poolUse)
          { touchPresence .reporter s with dict := { s.dict with mainState := .building } })) ∧
    (s.dict.mainState = .building →
      exec .buildComplete s = .next { s with
        dict := { s.dict with mainState := .ready }
        reporter := { s.reporter with attn := latch .loadDone s.reporter.attn } }) ∧
    (s.dict.mainState ≠ .building → exec .buildComplete s = .next s)

/-- Open Group, Stage Define, Stage Remove and Clear Job Tier (R80, R81, R82, R83): the group opens empty, a staged change takes the place of the
change for its key or joins the end of at most 32, and the job tier is emptied in STANDBY with no group open, refused BUSY with one open and
WRONG_STATE elsewhere. The payload layouts (log entry 16), the order of the checks where no rule gives one (log entry 19) and WRONG_STATE for
a key set with bit 23 set and no group open (log entry 20) are the model's reading. -/
def Obligations.GroupRequestsStageChanges : Prop :=
  ∀ (tag : Byte) (s : State), Takes .reporter s →
    (s.session.st ≠ .closing → s.dict.group = none →
      exec (.openGroup .reporter tag (.fields ())) s =
        .next (answered .reporter .openGroup tag .ok [] { touchPresence .reporter s with dict := { s.dict with group := some [] } })) ∧
    (s.dict.group ≠ none → s.session.st ≠ .closing →
      exec (.openGroup .reporter tag (.fields ())) s =
        .next (answered .reporter .openGroup tag .already [] (touchPresence .reporter s))) ∧
    (s.session.st = .closing →
      exec (.openGroup .reporter tag (.fields ())) s =
        .next (answered .reporter .openGroup tag .wrongState [] (touchPresence .reporter s))) ∧
    (∀ r : RawEntry, s.dict.group = none →
      exec (.stageDefine .reporter tag (.fields r)) s =
        .next (answered .reporter .stageDefine tag .wrongState [] (touchPresence .reporter s))) ∧
    (∀ (r : RawEntry), s.dict.group ≠ none → (∀ k ∈ r.key, badSet k = false) → keyInvalid (r.key.map toKeySet) = true →
      exec (.stageDefine .reporter tag (.fields r)) s =
        .next (answered .reporter .stageDefine tag .keyInvalid [] (touchPresence .reporter s))) ∧
    (∀ (r : RawEntry), s.dict.group ≠ none → (∀ k ∈ r.key, badSet k = false) → keyInvalid (r.key.map toKeySet) = false →
      40 < r.text.length →
      exec (.stageDefine .reporter tag (.fields r)) s =
        .next (answered .reporter .stageDefine tag .range [] (touchPresence .reporter s))) ∧
    (∀ g (r : RawEntry), s.dict.group = some g → (∀ k ∈ r.key, badSet k = false) → keyInvalid (r.key.map toKeySet) = false →
      r.text.length ≤ 40 → (∀ x ∈ g, x.key ≠ r.key.map toKeySet) → g.length < 32 →
      exec (.stageDefine .reporter tag (.fields r)) s =
        .next (answered .reporter .stageDefine tag .ok (be 1 (g.length + 1) ++ [0#8] ++ be 1 (replacedCount r.text))
          { touchPresence .reporter s with dict := { s.dict with group := some (g ++ [.define (dictEntryOf r)]) } })) ∧
    (∀ g (r : RawEntry), s.dict.group = some g → (∀ k ∈ r.key, badSet k = false) → keyInvalid (r.key.map toKeySet) = false →
      r.text.length ≤ 40 → (∃ x ∈ g, x.key = r.key.map toKeySet) →
      exec (.stageDefine .reporter tag (.fields r)) s =
        .next (answered .reporter .stageDefine tag .ok (be 1 g.length ++ [1#8] ++ be 1 (replacedCount r.text))
          { touchPresence .reporter s with dict := { s.dict with
            group := some (g.map (fun x => if x.key = r.key.map toKeySet then .define (dictEntryOf r) else x)) } })) ∧
    (∀ g (r : RawEntry), s.dict.group = some g → (∀ k ∈ r.key, badSet k = false) → keyInvalid (r.key.map toKeySet) = false →
      r.text.length ≤ 40 → (∀ x ∈ g, x.key ≠ r.key.map toKeySet) → 32 ≤ g.length →
      exec (.stageDefine .reporter tag (.fields r)) s =
        .next (answered .reporter .stageDefine tag .tableFull [] (touchPresence .reporter s))) ∧
    (∀ g (k : List (BitVec 24)), s.dict.group = some g → (∀ x ∈ k, badSet x = false) → keyInvalid (k.map toKeySet) = false →
      (∀ x ∈ g, x.key ≠ k.map toKeySet) → g.length < 32 →
      exec (.stageRemove .reporter tag (.fields k)) s =
        .next (answered .reporter .stageRemove tag .ok (be 1 (g.length + 1) ++ [0#8])
          { touchPresence .reporter s with dict := { s.dict with group := some (g ++ [.remove (k.map toKeySet)]) } })) ∧
    (∀ g (k : List (BitVec 24)), s.dict.group = some g → (∀ x ∈ k, badSet x = false) → keyInvalid (k.map toKeySet) = false →
      (∃ x ∈ g, x.key = k.map toKeySet) →
      exec (.stageRemove .reporter tag (.fields k)) s =
        .next (answered .reporter .stageRemove tag .ok (be 1 g.length ++ [1#8])
          { touchPresence .reporter s with dict := { s.dict with
            group := some (g.map (fun x => if x.key = k.map toKeySet then .remove (k.map toKeySet) else x)) } })) ∧
    (∀ g (k : List (BitVec 24)), s.dict.group = some g → (∀ x ∈ k, badSet x = false) → keyInvalid (k.map toKeySet) = false →
      (∀ x ∈ g, x.key ≠ k.map toKeySet) → 32 ≤ g.length →
      exec (.stageRemove .reporter tag (.fields k)) s =
        .next (answered .reporter .stageRemove tag .tableFull [] (touchPresence .reporter s))) ∧
    (s.dict.group = none → ∀ k : List (BitVec 24),
      exec (.stageRemove .reporter tag (.fields k)) s =
        .next (answered .reporter .stageRemove tag .wrongState [] (touchPresence .reporter s))) ∧
    (s.dict.group ≠ none →
      exec (.clearJobTier .reporter tag (.fields ())) s =
        .next (answered .reporter .clearJobTier tag .busy [] (touchPresence .reporter s))) ∧
    (s.session.st ≠ .standby → s.dict.group = none →
      exec (.clearJobTier .reporter tag (.fields ())) s =
        .next (answered .reporter .clearJobTier tag .wrongState [] (touchPresence .reporter s))) ∧
    (s.session.st = .standby → s.dict.group = none →
      exec (.clearJobTier .reporter tag (.fields ())) s =
        .next (answered .reporter .clearJobTier tag .ok (be 2 s.dict.job.length)
          { touchPresence .reporter s with dict := { s.dict with job := [] } }))

/-- Abandon Group discards the open group with its changes, leaves the job tier and the group number, and answers OK with the number
discarded; with no group open it is answered ALREADY (R86). -/
def Obligations.AbandonGroupDiscardsTheChanges : Prop :=
  ∀ (tag : Byte) (s : State), Takes .reporter s →
    (∀ g, s.dict.group = some g →
      exec (.abandonGroup .reporter tag (.fields ())) s =
        .next (answered .reporter .abandonGroup tag .ok (be 1 g.length)
          { touchPresence .reporter s with dict := { s.dict with group := none } })) ∧
    (s.dict.group = none →
      exec (.abandonGroup .reporter tag (.fields ())) s =
        .next (answered .reporter .abandonGroup tag .already [] (touchPresence .reporter s)))

/-- Commit Group applies every change together: under each key the job tier holds the entry of the DEFINE staged for it, nothing after a
REMOVE, and what it held where no change names the key. The next group number follows (1 after 65,535), the COMMIT entry is asked for, the
Translator is told, the group closes, and the answer counts the keys added, replaced, removed and not found, and the job entries there are
now, which are as many as the group was reckoned to leave. A group that would pass 2,048 job entries is refused TIER_FULL with the count and
stays open (R84, R85). The payload layouts are the model's reading (log entry 16), and so is that the Translator takes the notice as a step of
its own (log entry 22). -/
def Obligations.CommitAppliesTheGroupWhole : Prop :=
  ∀ (tag : Byte) (s : State) (g : List Staged) (held : List KeySet → Bool) (added replaced removed missing : Nat),
    Takes .reporter s → s.dict.group = some g →
    held = (fun k => s.dict.job.any (fun e => e.key = k)) →
    added = (g.filter (fun c => match c with | .define e => !held e.key | .remove _ => false)).length →
    replaced = (g.filter (fun c => match c with | .define e => held e.key | .remove _ => false)).length →
    removed = (g.filter (fun c => match c with | .define _ => false | .remove k => held k)).length →
    missing = (g.filter (fun c => match c with | .define _ => false | .remove k => !held k)).length →
    (s.dict.job.length + added - removed ≤ 2048 →
      ∃ t, exec (.commitGroup .reporter tag (.fields ())) s = .next t ∧
        t.dict = { s.dict with
          job := t.dict.job
          groupNumber := if s.dict.groupNumber < 65535 then s.dict.groupNumber + 1 else 1
          group := none } ∧
        (∀ key, t.dict.job.find? (fun e => e.key = key) =
          match (g.filter (fun c => c.key = key)).getLast? with
          | some (.define e) => some e
          | some (.remove _) => none
          | none => s.dict.job.find? (fun e => e.key = key)) ∧
        ((s.dict.job.map (·.key)).Nodup → (g.map Staged.key).Nodup → t.dict.job.length = s.dict.job.length + added - removed) ∧
        t.trans = { s.trans with notices := s.trans.notices + 1 } ∧
        t.reporter.exch = .ready {
          code := 0x26#8, tag := tag, status := .ok
          payload := be 2 t.dict.groupNumber ++ be 1 added ++ be 1 replaced ++ be 1 removed ++ be 1 missing ++ be 2 t.dict.job.length } ∧
        EntryJoins { kind := .commit, attrs := 0#8, seq := t.dict.groupNumber, time := s.session.clock
                     fieldA := added + replaced, fieldB := removed } s t ∧
        SessionHeld s t ∧ OutsideKept s t ∧ t.ksu = s.ksu ∧ t.chords = s.chords ∧ t.lines = s.lines ∧ t.feeds = s.feeds ∧
        t.marks = s.marks ∧ t.cls = s.cls ∧ t.memory = s.memory) ∧
    (2048 < s.dict.job.length + added - removed →
      exec (.commitGroup .reporter tag (.fields ())) s =
        .next (answered .reporter .commitGroup tag .tierFull (be 2 (s.dict.job.length + added - removed)) (touchPresence .reporter s)))

/-! ## Translation and lines -/

/-- STROKE_HANDOVER takes the oldest stroke handed over. An ordinary stroke in LIVE joins the lookahead and a pass runs on it: the longest front
that resolves leaves as a unit, or the oldest stroke as an untranslate, and so on with what remains, until what is left is extendable and below
6 strokes and waits with the timer restarted. The units set the carry state and enter the history, and their words join the open line where
they fit, or stand in a line opened for one. A stroke outside LIVE leaves the lookahead and the history without it, its word placed and every
line settled. A correction takes the newest stroke off a lookahead that holds any, else
retracts the newest unit: its strokes but the last return to the lookahead, its carry before is restored, and its text leaves its lines, which
are cut, withdrawn or reopened with the next number set back; where both are empty, or outside LIVE, it posts LATE_CORRECTION. Nothing
upstream of the Translator changes (R92, R94, R95, R97, R111, R112, R113, R116, R130, R131, R132, R133). -/
def Obligations.StrokeHandoverTakesTheOldestStroke : Prop :=
  ∀ (s : State) (k : Stroke) (ks : List Stroke), s.trans.handed = k :: ks →
    ∃ t, exec .strokeHandover s = .next t ∧ t.trans.handed = ks ∧
      UpstreamKept s t ∧ t.trans.setting = s.trans.setting ∧ t.trans.notices = s.trans.notices ∧
      (s.session.st = .live → k.press ≠ BitVec.twoPow 23 10 → s.trans.lookahead.length < 5 →
        extendable s.dict (s.trans.lookahead.map (·.press) ++ [k.press]) = true →
        t.trans = { s.trans with
          handed := ks
          lookahead := s.trans.lookahead ++ [{ seq := k.seq, press := k.press, cls := k.cls }]
          timer := if s.trans.setting = 0 then none else some (s.now + s.trans.setting) }) ∧
      (s.session.st = .live → k.press ≠ BitVec.twoPow 23 10 → s.trans.lookahead = [] → extendable s.dict [k.press] = false →
        t.trans.lookahead = [] ∧ t.trans.timer = s.trans.timer ∧
        (∀ e, (resolve s.dict [k.press]).entry = some e → t.trans.carry = carryAfter s.trans.carry e.text e.fmt) ∧
        ((resolve s.dict [k.press]).entry = none →
          t.trans.carry = carryAfter s.trans.carry (writtenForm k.press) Fmt.none)) ∧
      (∀ us rest, s.session.st = .live → k.press ≠ BitVec.twoPow 23 10 →
        PassForms s.dict false (s.trans.lookahead ++ [{ seq := k.seq, press := k.press, cls := k.cls }]) us rest →
        PassLeft us rest s.trans.carry s.trans.history t ∧ TimerFollows s.trans.lookahead rest s t ∧ UnitsPlaced us s t) ∧
      (∀ us, s.session.st ≠ .live → k.press ≠ BitVec.twoPow 23 10 →
        PassForms s.dict true (s.trans.lookahead ++ [{ seq := k.seq, press := k.press, cls := k.cls }]) us [] →
        t.trans.lookahead = [] ∧ t.trans.carry = carryThrough s.trans.carry us ∧ (∀ u ∈ t.trans.history, u ∈ s.trans.history) ∧
        t.lines.openLine = none ∧
        ∀ n l, WordsFit us n l s → ∃ x, findLine t.lines.records n = some x ∧ x.text = textWith us l ∧ x.state = .settled) ∧
      (s.session.st ≠ .live → k.press ≠ BitVec.twoPow 23 10 → s.trans.lookahead = [] →
        t.trans.lookahead = [] ∧ t.trans.timer = s.trans.timer ∧ t.lines.openLine = none ∧ (∀ u ∈ t.trans.history, u ∈ s.trans.history) ∧
        (∀ l ∈ t.lines.records, l.state ≠ .closed) ∧
        (∀ e, (resolve s.dict [k.press]).entry = some e → t.trans.carry = carryAfter s.trans.carry e.text e.fmt) ∧
        ((resolve s.dict [k.press]).entry = none →
          t.trans.carry = carryAfter s.trans.carry (writtenForm k.press) Fmt.none)) ∧
      (s.session.st ≠ .live → k.press = BitVec.twoPow 23 10 →
        t.trans = { s.trans with handed := ks } ∧ latchHolds .lateCorrection t.reporter.attn = true ∧ TextKept s t) ∧
      (s.session.st = .live → k.press = BitVec.twoPow 23 10 → s.trans.lookahead ≠ [] →
        (s.trans.lookahead.dropLast = [] →
          t.trans = { s.trans with handed := ks, lookahead := [], timer := none } ∧ TextKept s t) ∧
        (s.trans.lookahead.dropLast ≠ [] → s.trans.lookahead.length < 7 →
          extendable s.dict (s.trans.lookahead.dropLast.map (·.press)) = true →
          t.trans = { s.trans with
            handed := ks, lookahead := s.trans.lookahead.dropLast
            timer := if s.trans.setting = 0 then none else some (s.now + s.trans.setting) } ∧ TextKept s t) ∧
        (∀ e, s.trans.lookahead.dropLast ≠ [] → extendable s.dict (s.trans.lookahead.dropLast.map (·.press)) = false →
          (resolve s.dict (s.trans.lookahead.dropLast.map (·.press))).entry = some e →
          t.trans.lookahead = [] ∧ t.trans.timer = none ∧ t.trans.carry = carryAfter s.trans.carry e.text e.fmt) ∧
        (∀ us rest, PassForms s.dict false s.trans.lookahead.dropLast us rest →
          PassLeft us rest s.trans.carry s.trans.history t ∧ TimerFollows s.trans.lookahead rest s t ∧ UnitsPlaced us s t)) ∧
      (∀ u us rest, s.session.st = .live → k.press = BitVec.twoPow 23 10 → s.trans.lookahead = [] → s.trans.history.getLast? = some u →
        PassForms s.dict false u.strokes.dropLast us rest →
        PassLeft us rest u.before s.trans.history.dropLast t ∧ TimerFollows [] rest s t) ∧
      (∀ u, s.session.st = .live → k.press = BitVec.twoPow 23 10 → s.trans.lookahead = [] → s.trans.history.getLast? = some u →
        (u.strokes.dropLast = [] ∨ (u.strokes.dropLast.length < 6 ∧ extendable s.dict (u.strokes.dropLast.map (·.press)) = true)) →
        t.trans = { s.trans with
          handed := ks, history := s.trans.history.dropLast, carry := u.before, lookahead := u.strokes.dropLast
          timer :=
            if u.strokes.dropLast = [] then s.trans.timer
            else if s.trans.setting = 0 then none else some (s.now + s.trans.setting) } ∧
        t.lines.counter = s.lines.counter ∧
        (u.placement = none → TextKept s t) ∧
        (∀ p l, u.placement = some p → 0 < p.column → findLine s.lines.records p.serial = some l → l.unsettled = true →
          t.lines.openLine = some p.serial ∧
          (∃ x, findLine t.lines.records p.serial = some x ∧ x.state = .opn ∧ x.text = l.text.take p.column ∧
            x.revision =
              (if p.column < l.text.length then (if l.revision < 65535 then l.revision + 1 else 65535) else l.revision) ∧
            x.runs = l.runs.filter (fun r => r.column < p.column) ∧
            x.range = (x.runs.head?.bind (fun a => x.runs.getLast?.map (fun b => (a.first, b.last))))) ∧
          (∀ x ∈ t.lines.records, x.serial ≠ p.serial → ∃ y ∈ s.lines.records, x.serial = y.serial ∧ x.page = y.page ∧ x.line = y.line ∧
            (if p.serial < y.serial ∧ y.unsettled = true then
              x.state = .withdrawn ∧ x.text = [] ∧ x.revision = (if y.revision < 65535 then y.revision + 1 else 65535) ∧
                x.range = none ∧ x.runs = []
            else x.state = y.state ∧ x.text = y.text ∧ x.revision = y.revision)) ∧
          (∀ y, s.lines.records.find? (fun y => decide (p.serial < y.serial) && y.unsettled) = some y →
            t.lines.nextPage = y.page ∧ t.lines.nextLine = y.line) ∧
          (s.lines.records.find? (fun y => decide (p.serial < y.serial) && y.unsettled) = none →
            t.lines.nextPage = s.lines.nextPage ∧ t.lines.nextLine = s.lines.nextLine)) ∧
        (∀ p, u.placement = some p → p.column = 0 →
          (∀ x ∈ t.lines.records, ∃ y ∈ s.lines.records, x.serial = y.serial ∧ x.page = y.page ∧ x.line = y.line ∧
            (if p.serial ≤ y.serial ∧ y.unsettled = true then
              x.state = .withdrawn ∧ x.text = [] ∧ x.revision = (if y.revision < 65535 then y.revision + 1 else 65535) ∧
                x.range = none ∧ x.runs = []
            else x.text = y.text ∧ x.revision = y.revision ∧ (x.state = y.state ∨ x.state = .opn))) ∧
          (∀ y, s.lines.records.find? (fun y => decide (p.serial ≤ y.serial) && y.unsettled) = some y →
            t.lines.nextPage = y.page ∧ t.lines.nextLine = y.line) ∧
          (s.lines.records.find? (fun y => decide (p.serial ≤ y.serial) && y.unsettled) = none →
            t.lines.nextPage = s.lines.nextPage ∧ t.lines.nextLine = s.lines.nextLine) ∧
          (p.opening ≠ .wrap → t.lines.openLine = none) ∧
          (below s.lines.records p.serial = none → t.lines.openLine = none) ∧
          (∀ l, p.opening = .wrap → below s.lines.records p.serial = some l → l.state ≠ .closed → t.lines.openLine = none) ∧
          (∀ l, p.opening = .wrap → below s.lines.records p.serial = some l → l.state = .closed →
            findLine s.lines.records l.serial = some l →
            t.lines.openLine = some l.serial ∧
            ∃ x, findLine t.lines.records l.serial = some x ∧ x.state = .opn ∧ x.text = l.text ∧ x.revision = l.revision))) ∧
      (s.session.st = .live → k.press = BitVec.twoPow 23 10 → s.trans.lookahead = [] → s.trans.history = [] →
        t.trans = { s.trans with handed := ks } ∧ latchHolds .lateCorrection t.reporter.attn = true ∧
        t.lines.counter = s.lines.counter ∧ t.lines.openLine = s.lines.openLine)

/-- A word of a stroke of LIVE that is not extendable and resolves to an entry, at most a line long, is laid by the Line Builder. On an open
line of its class with room it joins the line's end behind a separator. With no line open it opens a line FORCED under the next serial and the
next number. On an open line of its class without room that line closes WRAP, the lowest CLOSED lines beyond the settle depth settle, and the
word stands alone in a line opened by WRAP. With 4,096 records in use the lowest SETTLED or WITHDRAWN record is reclaimed first: it leaves the
store, its marks become DETACHED, and each enabled feed loses its serial from the edit queue and is out of step if it owed it a frame. In each
case the unit enters the history with its placement, CONTINUED, FORCED or WRAP, the history is pruned at the lines that settle, and the carry
state is that of the entry (R95, R102, R108, R109, R122, R123, R125, R126, R127, R129, R135, R171). -/
def Obligations.TranslatedWordJoinsTheOpenLine : Prop :=
  ∀ (s : State) (k : Stroke) (ks : List Stroke) (e : DictEntry), s.trans.handed = k :: ks → s.session.st = .live →
    k.press ≠ BitVec.twoPow 23 10 → s.trans.lookahead = [] → extendable s.dict [k.press] = false →
    (resolve s.dict [k.press]).entry = some e → OneWord e s →
    (∀ n l, WordFits e k.cls n l s →
      ∃ t, exec .strokeHandover s = .next t ∧ WordJoined e n l k.seq k.seq t ∧
        t.lines.counter = s.lines.counter ∧ t.lines.nextPage = s.lines.nextPage ∧ t.lines.nextLine = s.lines.nextLine ∧
        (∀ y ∈ t.lines.records, ∃ z ∈ s.lines.records, y.serial = z.serial) ∧
        UnitEntered e k { serial := n, column := l.text.length, count := e.text.length + 1, opening := .continued } [] s t ∧
        UpstreamKept s t) ∧
    (s.lines.openLine = none → e.text.length ≤ s.lines.width → s.lines.counter < 4294967295 → s.lines.records.length < 4096 →
      findLine s.lines.records (s.lines.counter + 1) = none →
      ∃ t, exec .strokeHandover s = .next t ∧ WordOpened e k.cls k.seq k.seq s t ∧
        UnitEntered e k { serial := s.lines.counter + 1, column := 0, count := e.text.length, opening := .forced } [] s t ∧
        UpstreamKept s t) ∧
    (∀ n l c, s.lines.openLine = some n → findLine s.lines.records n = some l → l.state = .opn → l.cls = k.cls → l.text ≠ [] →
      s.lines.width < l.text.length + 1 + e.text.length → e.text.length ≤ s.lines.width → s.lines.counter < 4294967295 →
      s.lines.records.length < 4096 → findLine s.lines.records (s.lines.counter + 1) = none →
      c = ((s.lines.records.map (fun y => if y.serial = n ∧ y.state = .opn then { y with state := .closed } else y)).filter
        (fun y => y.state = .closed)).map (·.serial) →
      ∃ t, exec .strokeHandover s = .next t ∧ WordOpened e k.cls k.seq k.seq s t ∧
        (∀ m y, findLine s.lines.records m = some y → y.state = .closed ∨ m = n →
          ∃ x, findLine t.lines.records m = some x ∧ x.text = y.text ∧ x.revision = y.revision ∧ x.range = y.range ∧
            x.state = (if m ∈ c.take (c.length - s.lines.settle) then .settled else .closed)) ∧
        UnitEntered e k { serial := s.lines.counter + 1, column := 0, count := e.text.length, opening := .wrap }
          (c.take (c.length - s.lines.settle)) s t ∧
        UpstreamKept s t) ∧
    (∀ r, s.lines.openLine = none → e.text.length ≤ s.lines.width → s.lines.counter < 4294967295 → 4096 ≤ s.lines.records.length →
      findLine s.lines.records (s.lines.counter + 1) = none →
      s.lines.records.find? (fun y => y.state = .settled || y.state = .withdrawn) = some r →
      ∃ t, exec .strokeHandover s = .next t ∧ WordOpened e k.cls k.seq k.seq s t ∧ findLine t.lines.records r.serial = none ∧
        t.marks.records = s.marks.records.map (fun m =>
          if m.serial = r.serial ∧ m.detached = false then { m with detached := true } else m) ∧
        (∀ f, (feed s f).state.enabled = true →
          (feed t f).outOfStep = ((feed s f).outOfStep || owed s.lines.records f (feed s f) r) ∧ r.serial ∉ (feed t f).edits) ∧
        UnitEntered e k { serial := s.lines.counter + 1, column := 0, count := e.text.length, opening := .forced } [] s t ∧
        UpstreamKept s t)

/-- The resolution timer's expiry flushes the lookahead and stops the timer, whether or not the lookahead is extendable: again and again the
longest front that resolves leaves as one unit, or the oldest stroke as an untranslate, whose text is its written form, until no stroke is
left. The units set the carry state and enter the history, each of its kind and with its strokes; their words join the open line where they
fit, and a single one stands in a line opened for it where none is open. The written form holds the keys in index order, each as its letter,
with a hyphen before the first right-bank key where none of the indexes 8 to 12 is pressed. Nothing upstream of the Translator changes, and
before its time nothing occurs (R95, R98, R100, R101, R102, R109, R123). That an expiry before its time does not occur is the model's choice (log entry 2). -/
def Obligations.ResolutionExpiryFlushesTheLookahead : Prop :=
  ∀ (s : State) (e : Nat), s.trans.timer = some e →
    (e ≤ s.now →
      ∃ t, exec .resolutionTimerExpiry s = .next t ∧ t.trans.lookahead = [] ∧ t.trans.timer = none ∧
        t.trans.handed = s.trans.handed ∧ t.trans.setting = s.trans.setting ∧
        (s.trans.lookahead = [] → t.trans = { s.trans with timer := none } ∧ TextKept s t) ∧
        (∀ b bs d, s.trans.lookahead = b :: bs → (resolve s.dict (s.trans.lookahead.map (·.press))).entry = some d →
          t.trans.carry = carryAfter s.trans.carry d.text d.fmt ∧
          ∀ n l, WordFits d (unitClass s.trans.lookahead) n l s → WordJoined d n l b.seq ((b :: bs).getLast (by simp)).seq t) ∧
        (∀ b, s.trans.lookahead = [b] → (resolve s.dict [b.press]).entry = none →
          t.trans.carry = carryAfter s.trans.carry (writtenForm b.press) Fmt.none) ∧
        (∀ us, PassForms s.dict true s.trans.lookahead us [] →
          PassLeft us [] s.trans.carry s.trans.history t ∧ UnitsPlaced us s t) ∧
        UpstreamKept s t) ∧
    (s.now < e → exec .resolutionTimerExpiry s = .next s) ∧
    ∀ p : KeySet, writtenForm p = (List.range 23).flatMap (fun i =>
      if p.getLsbD i = true then
        (if 13 ≤ i ∧ ∀ j ∈ List.range i, 8 ≤ j → p.getLsbD j = false then [0x2D#8] else []) ++
          [BitVec.ofNat 8 ((['#', 'S', 'T', 'K', 'P', 'W', 'H', 'R', 'A', 'O', '*', 'E', 'U', 'F', 'R', 'P', 'B', 'L', 'G', 'T', 'S', 'D',
            'Z'].getD i ' ').toNat)]
      else [])

/-- A tier-change notice is taken: a pass runs on the lookahead; an empty lookahead makes it form nothing, and a lookahead that stays
extendable below 6 strokes waits with the timer as it was. A lookahead that is not extendable, or holds 6 strokes, does not wait: the longest
front that resolves leaves as one unit, or the oldest stroke as an untranslate, and the pass goes on with what remains. The units set the carry
state and enter the history, and their words join the open line where they fit, or stand in a line opened for one; the timer stops when the
lookahead is empty and restarts where it has changed. With no notice waiting nothing occurs (R95, R97, R101, R102, R109, R114, R123). That with no notice nothing occurs is the model's choice (log entry 2). -/
def Obligations.TierNoticeRunsAPass : Prop :=
  ∀ s : State,
    (∀ n, s.trans.notices = n + 1 →
      ∃ t, exec .tierChangeNotice s = .next t ∧ t.trans.notices = n ∧ t.trans.handed = s.trans.handed ∧
        UpstreamKept s t ∧
        (s.trans.lookahead = [] → t.trans = { s.trans with notices := n }) ∧
        (s.trans.lookahead ≠ [] → s.trans.lookahead.length < 6 →
          extendable s.dict (s.trans.lookahead.map (·.press)) = true → t.trans = { s.trans with notices := n }) ∧
        (∀ b bs d, s.trans.lookahead = b :: bs →
          (6 ≤ s.trans.lookahead.length ∨ extendable s.dict (s.trans.lookahead.map (·.press)) = false) →
          (resolve s.dict (s.trans.lookahead.map (·.press))).entry = some d →
          t.trans.lookahead = [] ∧ t.trans.timer = none ∧ t.trans.carry = carryAfter s.trans.carry d.text d.fmt ∧
          ∀ m l, WordFits d (unitClass s.trans.lookahead) m l s → WordJoined d m l b.seq ((b :: bs).getLast (by simp)).seq t) ∧
        (∀ b, s.trans.lookahead = [b] → extendable s.dict [b.press] = false → (resolve s.dict [b.press]).entry = none →
          t.trans.lookahead = [] ∧ t.trans.timer = none ∧
          t.trans.carry = carryAfter s.trans.carry (writtenForm b.press) Fmt.none) ∧
        (∀ us rest, PassForms s.dict false s.trans.lookahead us rest →
          PassLeft us rest s.trans.carry s.trans.history t ∧ TimerFollows s.trans.lookahead rest s t ∧ UnitsPlaced us s t)) ∧
    (s.trans.notices = 0 → exec .tierChangeNotice s = .next s)

/-- Edit Line replaces the text of a SETTLED line, raises its revision, sets its edited flag, revises its marks and posts LINE_EDITED; it is
refused WRONG_STATE in CLOSING, NOT_FOUND, NOT_SETTLED, and RANGE above the line width. In LIVE and RECESS it asks for an EDIT entry with the
line's class, serial, page and line, the new revision and the new length. Its serial joins the edit queue of each enabled feed
unless it stands there, and a full queue loses its oldest serial and puts the feed out of step (R136, R137, R170). The payload layouts are the
model's reading (log entry 16). -/
def Obligations.EditLineRewritesASettledLine : Prop :=
  ∀ (tag : Byte) (s : State) (a : EditLineArgs), Takes .reporter s →
    (∀ l, s.session.st ≠ .closing → findLine s.lines.records a.serial = some l → l.state = .settled →
      a.text.length ≤ s.lines.width →
      ∃ t, exec (.editLine .reporter tag (.fields a)) s = .next t ∧
        (t.reporter.exch = .ready {
          code := 0x50#8, tag := tag, status := .ok
          payload := be 2 (if l.revision < 65535 then l.revision + 1 else 65535) ++ be 1 (replacedCount a.text) }) ∧
        latchHolds .lineEdited t.bench.attn = true ∧
        t.marks.records = s.marks.records.map (fun m =>
          if m.serial = l.serial ∧ m.detached = false ∧ m.revised = false then { m with revised := true } else m) ∧
        (s.session.st = .standby → t.journal = s.journal) ∧
        ((s.session.st = .live ∨ s.session.st = .recess) →
          EntryJoins { kind := .edit, attrs := BitVec.ofNat 8 l.cls.code, seq := l.serial, time := s.session.clock
                       fieldA := l.page * 256 + l.line
                       fieldB := (if l.revision < 65535 then l.revision + 1 else 65535) * 256 + a.text.length } s t) ∧
        (∃ x, findLine t.lines.records a.serial = some x ∧ x.text = replaceText a.text ∧ x.edited = true ∧ x.state = .settled ∧
          x.revision = (if l.revision < 65535 then l.revision + 1 else 65535) ∧
          x.page = l.page ∧ x.line = l.line ∧ x.cls = l.cls ∧ x.range = l.range) ∧
        (∀ f, (feed s f).state.enabled = false → (feed t f).edits = (feed s f).edits) ∧
        (∀ f, ((feed s f).state = .held ∨ (feed s f).state = .stalled ∨ ((feed s f).state = .live ∧ (feed s f).flight ≠ none)) →
          (l.serial ∈ (feed s f).edits → (feed t f).edits = (feed s f).edits ∧ (feed t f).outOfStep = (feed s f).outOfStep) ∧
          (l.serial ∉ (feed s f).edits → (feed s f).edits.length < 16 →
            (feed t f).edits = (feed s f).edits ++ [l.serial] ∧ (feed t f).outOfStep = (feed s f).outOfStep) ∧
          (l.serial ∉ (feed s f).edits → 16 ≤ (feed s f).edits.length →
            (feed t f).edits = (feed s f).edits.drop 1 ++ [l.serial] ∧ (feed t f).outOfStep = true)) ∧
        OutsideKept s t ∧ t.session = s.session ∧ t.ksu = s.ksu ∧ t.chords = s.chords ∧ t.dict = s.dict ∧ t.trans = s.trans ∧
        t.cls = s.cls ∧ t.memory = s.memory) ∧
    (s.session.st = .closing →
      exec (.editLine .reporter tag (.fields a)) s =
        .next (answered .reporter .editLine tag .wrongState [] (touchPresence .reporter s))) ∧
    (s.session.st ≠ .closing → findLine s.lines.records a.serial = none →
      exec (.editLine .reporter tag (.fields a)) s =
        .next (answered .reporter .editLine tag .notFound [] (touchPresence .reporter s))) ∧
    (∀ l, s.session.st ≠ .closing → findLine s.lines.records a.serial = some l → l.state ≠ .settled →
      exec (.editLine .reporter tag (.fields a)) s =
        .next (answered .reporter .editLine tag .notSettled [] (touchPresence .reporter s))) ∧
    (∀ l, s.session.st ≠ .closing → findLine s.lines.records a.serial = some l → l.state = .settled →
      s.lines.width < a.text.length →
      exec (.editLine .reporter tag (.fields a)) s =
        .next (answered .reporter .editLine tag .range [] (touchPresence .reporter s)))

/-! ## The proceeding class -/

/-- SBAR at a new level is compared with the indication: an equal level stops the deglitch timer, an unequal one starts it, or with setting 0
is taken at once; the timer's expiry takes the level, and an assertion posts SIDEBAR_LINE to both links (R144, R146). That an expiry before
its time does not occur is the model's choice (log entry 2). -/
def Obligations.SbarIsFollowedThroughTheDeglitch : Prop :=
  ∀ (s : State) (high : Bool), s.pins.rstnHeld = false →
    (s.pins.sbar = high → exec (.sbarChange high) s = .next s) ∧
    (s.pins.sbar ≠ high → s.cls.sbar = high →
      exec (.sbarChange high) s = .next { s with pins := { s.pins with sbar := high }, cls := { s.cls with timer := none } }) ∧
    (s.pins.sbar ≠ high → s.cls.sbar ≠ high → s.cls.setting ≠ 0 →
      exec (.sbarChange high) s =
        .next { s with pins := { s.pins with sbar := high }, cls := { s.cls with timer := some (s.now + s.cls.setting) } }) ∧
    (s.pins.sbar ≠ high → s.cls.sbar ≠ high → s.cls.setting = 0 →
      ∃ t, exec (.sbarChange high) s = .next t ∧ t.cls.sbar = high ∧ t.cls.timer = none ∧ t.cls.bench = s.cls.bench ∧
        (high = true → latchHolds .sidebarLine t.reporter.attn = true ∧ latchHolds .sidebarLine t.bench.attn = true)) ∧
    (∀ e, s.cls.timer = some e → e ≤ s.now →
      ∃ t, exec .deglitchExpiry s = .next t ∧ t.cls.sbar = s.pins.sbar ∧ t.cls.timer = none ∧ t.cls.bench = s.cls.bench ∧
        (s.pins.sbar = true → latchHolds .sidebarLine t.reporter.attn = true ∧ latchHolds .sidebarLine t.bench.attn = true) ∧
        SessionHeld s t ∧ OutsideKept s t ∧ t.ksu = s.ksu ∧ t.chords = s.chords ∧ t.dict = s.dict ∧ t.trans = s.trans ∧
        t.lines = s.lines ∧ t.feeds = s.feeds ∧ t.marks = s.marks ∧ t.memory = s.memory) ∧
    (∀ e, s.cls.timer = some e → s.now < e → exec .deglitchExpiry s = .next s)

/-- Set Class in LIVE and RECESS sets the bench class and forms the effective class afresh; a change of it asks for a CLASS entry and posts
CLASS_CHANGED to both links; it is refused WRONG_STATE in the other states, RANGE for a number that names no class, and answered ALREADY for
the class that stands (R147, R149, R150). -/
def Obligations.SetClassFormsTheClassAfresh : Prop :=
  ∀ (tag : Byte) (s : State) (n : Nat) (c : Cls), Takes .bench s → Cls.ofCode n = some c →
    (∀ m, (s.session.st = .live ∨ s.session.st = .recess) → 3 ≤ m →
      exec (.setClass .bench tag (.fields m)) s = .next (answered .bench .setClass tag .range [] (touchPresence .bench s))) ∧
    ((s.session.st = .live ∨ s.session.st = .recess) → s.cls.bench = c →
      exec (.setClass .bench tag (.fields n)) s = .next (answered .bench .setClass tag .already [] (touchPresence .bench s))) ∧
    ((s.session.st = .standby ∨ s.session.st = .closing) →
      exec (.setClass .bench tag (.fields n)) s = .next (answered .bench .setClass tag .wrongState [] (touchPresence .bench s))) ∧
    ((s.session.st = .live ∨ s.session.st = .recess) → s.cls.bench ≠ c →
      ∃ t, exec (.setClass .bench tag (.fields n)) s = .next t ∧
        t.cls = { s.cls with bench := c, effective := Cls.max c (if s.cls.sbar then .sidebar else .opn) } ∧
        (∃ r, t.bench.exch = .ready r ∧ r.status = .ok ∧ r.tag = tag ∧ r.code = 0x70#8) ∧
        (t.cls.effective ≠ s.cls.effective →
          latchHolds .classChanged t.reporter.attn = true ∧ latchHolds .classChanged t.bench.attn = true) ∧
        (t.cls.effective = s.cls.effective → t.journal = s.journal) ∧
        (∀ i b, t.cls.effective ≠ s.cls.effective → s.journal.cond = .normal →
          findFilling s.journal.buffers = some (i, b) → b.entries.length < 63 → s.journal.nextEntry < 4294967295 →
          t.journal.buffers = s.journal.buffers.set i (.filling (b.add
            { kind := .cls, attrs := BitVec.ofNat 8 t.cls.effective.code, seq := s.chords.strokes, time := s.session.clock
              fieldA := t.cls.effective.code * 65536 + c.code * 256 + (if s.cls.sbar then 1 else 0)
              fieldB := s.cls.effective.code * 65536 + 256 }))) ∧
        OutsideKept s t ∧ t.session = s.session ∧ t.ksu = s.ksu ∧ t.chords = s.chords ∧ t.dict = s.dict ∧ t.trans = s.trans ∧
        t.lines = s.lines ∧ t.feeds = s.feeds ∧ t.marks = s.marks ∧ t.memory = s.memory)

/-- The effective class is the more restrictive of the bench class and of what the SBAR indication gives, after every step from a state where
it is; so with the indication asserted it is SIDEBAR or CHAMBERS (R148). -/
def Obligations.EffectiveClassStaysFormed : Prop :=
  ∀ (s t : State), ClassFormed s → step s = .next t →
    ClassFormed t ∧ (t.cls.sbar = true → t.cls.effective = .sidebar ∨ t.cls.effective = .chambers) ∧
      (t.cls.sbar = false → t.cls.effective = t.cls.bench)

/-! ## The feeds -/

/-- FnRDY: a deassertion changes the pin alone; an assertion stops the stall timer, marks the receiver of an enabled feed seen, and returns a
STALLED feed to HELD or LIVE. FGATE3: low posts FEED_GATE to both links and holds F3, high ends the gate (R172, R173, R175). -/
def Obligations.FeedPinsAreFollowed : Prop :=
  ∀ (s : State) (f : Fin 4),
    (s.pins.rdy.get f = true →
      exec (.fnrdyChange f false) s = .next { s with pins := { s.pins with rdy := s.pins.rdy.set f false } }) ∧
    (s.pins.rdy.get f = false →
      ∃ t, exec (.fnrdyChange f true) s = .next t ∧ t.pins = { s.pins with rdy := s.pins.rdy.set f true } ∧
        (feed t f).stallTimer = none ∧
        ((feed s f).state.enabled = true → (feed t f).seen = true) ∧
        ((feed s f).state = .stalled → (feed t f).state = if holdActive s f = true then .held else .live) ∧
        ((feed s f).state ≠ .stalled → (feed t f).state = (feed s f).state) ∧
        OnlyFeedsMove s t) ∧
    (s.pins.rstnHeld = false → s.pins.fgate3 = true →
      ∃ t, exec (.fgate3Change false) s = .next t ∧ t.feeds.gate = true ∧ t.pins = { s.pins with fgate3 := false } ∧
        latchHolds .feedGate t.reporter.attn = true ∧ latchHolds .feedGate t.bench.attn = true ∧
        ((feed s 3).state = .live → (feed t 3).state = .held) ∧ ((feed s 3).state ≠ .live → (feed t 3).state = (feed s 3).state) ∧
        OnlyFeedsMove s t) ∧
    (s.pins.rstnHeld = false → s.pins.fgate3 = false →
      ∃ t, exec (.fgate3Change true) s = .next t ∧ t.feeds.gate = false ∧
        ((feed s 3).state = .held → (feed s 3).benchHold = false → (feed t 3).state = .live) ∧
        ((feed s 3).state = .held → (feed s 3).benchHold = true → (feed t 3).state = .held) ∧
        OnlyFeedsMove s t)

/-- A frame in flight completes: a LIVE or HELD feed restarts its idle timer; a STOPPING feed becomes OFF, its FnTX idle; a TEST feed that has sent all it
was asked ends COMPLETE with FEED_TEST_DONE; with no frame in flight nothing occurs. A LIVE feed then makes its frame choice, which with FnRDY
asserted starts the frame it yields: an UPDATE for the oldest serial of its edit queue; else, at the first record from the low water up that
needs a frame, a LINE, UPDATE or WITHDRAW, or a WITHHELD where an invisible run begins; each start records what it must. Where no record needs
a frame none starts, and the low water is raised to the first record that may need one yet. With FnRDY deasserted the stall timer runs instead
(R156, R161, R162, R163, R164, R165, R166, R167, R172, R179). That with no frame in flight nothing occurs is the model's choice (log
entry 2). -/
def Obligations.FrameCompletionReachesTheBoundary : Prop :=
  ∀ (s : State) (f : Fin 4),
    ((feed s f).flight = none → exec (.frameComplete f) s = .next s) ∧
    (∀ fr, (feed s f).flight = some fr →
      ∃ t, exec (.frameComplete f) s = .next t ∧
        (((feed s f).state = .live ∨ (feed s f).state = .held) →
          (feed t f).idleTimer = some (s.now + (feed s f).idleInterval) ∧ (feed t f).state = (feed s f).state) ∧
        (∀ (c : Feed) (due : Line → Bool), c = feed s f → c.state = .live →
          due = (fun l =>
            if l.state = .withdrawn then l.sent.get f ≠ 0 && !l.withdrawSent.get f
            else if visible c.audience l.cls then l.revision ≠ l.sent.get f else decide (c.announced < l.serial)) →
          (∀ n ns l, c.edits = n :: ns → findLine s.lines.records n = some l → visible c.audience l.cls = true →
            (s.pins.rdy.get f = true →
              (feed t f).flight = some (.text true l.serial l.page l.line l.cls l.revision l.text) ∧ (feed t f).edits = ns ∧
              ∃ x, findLine t.lines.records n = some x ∧ x.sent.get f = l.revision ∧ x.text = l.text) ∧
            (s.pins.rdy.get f = false →
              (feed t f).flight = none ∧ (feed t f).edits = c.edits ∧
              (feed t f).stallTimer = some (c.stallTimer.getD (s.now + c.stallTime)))) ∧
          (∀ l, c.edits = [] → s.lines.records.find? (fun y => decide (c.lowWater ≤ y.serial) && due y) = some l →
            s.pins.rdy.get f = true →
            (l.state ≠ .withdrawn → visible c.audience l.cls = true →
              (feed t f).flight = some (.text (decide (l.sent.get f ≠ 0)) l.serial l.page l.line l.cls l.revision l.text) ∧
              (feed t f).withheld = (if l.sent.get f = 0 ∧ c.announced < l.serial then false else c.withheld) ∧
              (feed t f).announced = c.announced ∧
              ∀ x, findLine t.lines.records l.serial = some x → x.sent.get f = l.revision) ∧
            (l.state = .withdrawn →
              (feed t f).flight = some (.withdraw l.serial l.page l.line) ∧
              ∀ x, findLine t.lines.records l.serial = some x → x.withdrawSent.get f = true) ∧
            (l.state ≠ .withdrawn → visible c.audience l.cls = false →
              s.lines.records.Pairwise (fun a b => a.serial < b.serial) →
              (∀ p, below s.lines.records l.serial = some p → visible c.audience p.cls = true ∨ c.announced < p.serial) →
              (feed t f).flight = some (.withheld l.serial l.page l.line l.cls) ∧ (feed t f).announced = l.serial ∧
              (feed t f).withheld = true) ∧
            (∀ p, l.state ≠ .withdrawn → visible c.audience l.cls = false →
              s.lines.records.Pairwise (fun a b => a.serial < b.serial) →
              below s.lines.records l.serial = some p → visible c.audience p.cls = false → p.serial ≤ c.announced →
              l.serial ≤ (feed t f).announced)) ∧
          (c.edits = [] → s.lines.records.find? (fun y => decide (c.lowWater ≤ y.serial) && due y) = none →
            (feed t f).flight = none ∧ (feed t f).announced = c.announced ∧ (feed t f).withheld = c.withheld ∧
            t.lines = s.lines ∧
            (feed t f).lowWater =
              match s.lines.records.find? (fun y => decide (c.lowWater ≤ y.serial) && visible c.audience y.cls
                && (y.state = .opn || y.state = .closed)) with
              | some y => y.serial
              | none => max c.lowWater (s.lines.counter + 1))) ∧
        ((feed s f).state = .stopping → testRuns (feed s f) = false →
          (feed t f).state = .off ∧ (feed t f).flight = none ∧ TxIdle t f ∧ (feed t f).health = .notEnabled ∧
          ∀ l ∈ t.lines.records, l.sent.get f = 0 ∧ l.withdrawSent.get f = false) ∧
        (∀ r, (feed s f).state = .test → (feed s f).test = some r → r.asked ≤ r.sent →
          (feed t f).state = .off ∧ (feed t f).test = some { r with outcome := .complete } ∧
          latchHolds .feedTestDone t.reporter.attn = true) ∧
        OnlyFeedsMove s t)

/-- The idle timer's expiry makes an IDLE frame due, which a HELD feed at a boundary with FnRDY asserted starts with the held mark, and a LIVE one
without it where no line and no edit needs a frame; with FnRDY deasserted the stall timer runs instead. The stall timer's expiry makes a LIVE or HELD feed STALLED with the health code its receiver gives, and ends a test STALLED. A change of the current
health code lowers each link's latched code to it where it is the lower, and posts FEED_ALERT to both links where the new code is
RECEIVER_ABSENT, STALLED or OUT_OF_STEP; a code that stays tells nothing (R164, R168, R172, R176, R179, R180, R181, R182). That an expiry before its
time does not occur is the model's choice (log entry 2). -/
def Obligations.FeedTimersExpire : Prop :=
  ∀ (s : State) (f : Fin 4) (e : Nat),
    ((feed s f).idleTimer = some e → e ≤ s.now → (feed s f).state = .held → (feed s f).flight = none → s.pins.rdy.get f = true →
      exec (.idleTimerExpiry f) s = .next (setFeedCtx f { feed s f with
        idleTimer := none, idleDue := true
        flight := some (.idle true (feed s f).health s.session.number s.lines.counter) } s)) ∧
    ((feed s f).idleTimer = some e → e ≤ s.now → (feed s f).state = .held → (feed s f).flight = none → s.pins.rdy.get f = false →
      exec (.idleTimerExpiry f) s = .next (setFeedCtx f { feed s f with
        idleTimer := none, idleDue := true
        stallTimer := some ((feed s f).stallTimer.getD (s.now + (feed s f).stallTime)) } s)) ∧
    (∀ (c : Feed) (low : Nat), c = feed s f → c.idleTimer = some e → e ≤ s.now → c.state = .live → c.flight = none → c.edits = [] →
      (∀ l ∈ s.lines.records, c.lowWater ≤ l.serial →
        (if l.state = .withdrawn then l.sent.get f = 0 ∨ l.withdrawSent.get f = true
         else if visible c.audience l.cls = true then l.revision = l.sent.get f else l.serial ≤ c.announced)) →
      low = (match s.lines.records.find? (fun y => decide (c.lowWater ≤ y.serial) && visible c.audience y.cls
          && (y.state = .opn || y.state = .closed)) with
        | some y => y.serial
        | none => max c.lowWater (s.lines.counter + 1)) →
      (s.pins.rdy.get f = true →
        exec (.idleTimerExpiry f) s = .next (setFeedCtx f { c with
          idleTimer := none, idleDue := true, lowWater := low
          flight := some (.idle false c.health s.session.number s.lines.counter) } s)) ∧
      (s.pins.rdy.get f = false →
        exec (.idleTimerExpiry f) s = .next (setFeedCtx f { c with
          idleTimer := none, idleDue := true, lowWater := low
          stallTimer := some (c.stallTimer.getD (s.now + c.stallTime)) } s))) ∧
    ((feed s f).idleTimer = some e → e ≤ s.now → (feed s f).flight ≠ none →
      exec (.idleTimerExpiry f) s = .next (setFeedCtx f { feed s f with idleTimer := none, idleDue := true } s)) ∧
    ((feed s f).idleTimer = some e → s.now < e → exec (.idleTimerExpiry f) s = .next s) ∧
    ((feed s f).stallTimer = some e → s.now < e → exec (.stallTimerExpiry f) s = .next s) ∧
    ((feed s f).stallTimer = some e → e ≤ s.now → ((feed s f).state = .live ∨ (feed s f).state = .held) →
      ∃ t, exec (.stallTimerExpiry f) s = .next t ∧
        feed t f = { feed s f with
          state := .stalled, stallTimer := none, idleTimer := none
          health := if (feed s f).seen = true then .stalled else .receiverAbsent } ∧
        (∀ g, g ≠ f → feed t g = feed s g) ∧
        HealthTold f (feed s f).health (feed t f).health s.reporter t.reporter ∧
        HealthTold f (feed s f).health (feed t f).health s.bench t.bench ∧
        t = { s with feeds := t.feeds, reporter := t.reporter, bench := t.bench }) ∧
    (∀ r, (feed s f).stallTimer = some e → e ≤ s.now → (feed s f).state = .test → (feed s f).test = some r →
      ∃ t, exec (.stallTimerExpiry f) s = .next t ∧ (feed t f).state = .off ∧ (feed t f).test = some { r with outcome := .stalled } ∧
        (feed t f).health = .notEnabled ∧ HealthTold f (feed s f).health .notEnabled s.bench t.bench ∧
        latchHolds .feedTestDone t.reporter.attn = true)

/-- Set Feed, Enable Feed, Disable Feed and Test Feed on a feed at its boundary: the five values are written clamped; an enabled feed is LIVE
or HELD and reports its low water, the smaller of the newest serial less the backfill plus 1 and the oldest unsettled serial, lifted to the
oldest held serial (0 stands for a number below 0 until it is lifted); a disabled one is OFF with its
per-line fields at zero and FnTX at the idle level, high; a test begins with the sequence at its seed; on a feed that is not OFF, Set Feed and
Test Feed are refused BUSY (R159, R160, R161, R177). The payload layouts are the model's reading (log entry 16). -/
def Obligations.FeedRequestsChangeTheFeed : Prop :=
  ∀ (tag : Byte) (s : State) (f : Fin 4), Takes .reporter s →
    (∀ (a : SetFeedArgs) (au : Audience) (r : Rate), a.feed = f.val → Audience.ofCode a.audience = some au → Rate.ofCode a.rate = some r →
      (feed s f).state = .off →
      ∃ p, exec (.setFeed .reporter tag (.fields a)) s =
        .next (answered .reporter .setFeed tag .ok p
          (setFeedCtx f { feed s f with
            audience := au, rate := r, backfill := clampTo 1 256 a.backfill, idleInterval := clampTo 250 5000 a.idle
            stallTime := clampTo 500 10000 a.stall } (touchPresence .reporter s)))) ∧
    (∀ (a : SetFeedArgs) (au : Audience) (r : Rate), a.feed = f.val → Audience.ofCode a.audience = some au → Rate.ofCode a.rate = some r →
      (feed s f).state ≠ .off →
      exec (.setFeed .reporter tag (.fields a)) s =
        .next (answered .reporter .setFeed tag .busy [] (touchPresence .reporter s))) ∧
    ((feed s f).state = .off → (feed s f).flight = none →
      ∃ t, exec (.enableFeed .reporter tag (.fields f.val)) s = .next t ∧
        (feed t f).state = (if holdActive s f = true then .held else .live) ∧
        (feed t f).seen = s.pins.rdy.get f ∧ (feed t f).outOfStep = false ∧
        (feed t f).idleTimer = some (s.now + (feed s f).idleInterval) ∧
        (∀ o u low, o = ((s.lines.records.head?.map (·.serial)).getD (s.lines.counter + 1)) →
          u = (((s.lines.records.find? (fun l => l.state = .opn || l.state = .closed)).map (·.serial)).getD (s.lines.counter + 1)) →
          low = max (min (s.lines.counter + 1 - (feed s f).backfill) u) o →
          t.reporter.exch = .ready {
            code := 0x61#8, tag := tag, status := .ok
            payload := be 4 low ++ be 1 (if holdActive s f = true then 2 else 1) }) ∧
        OnlyFeedsMove s t) ∧
    ((feed s f).state.enabled = true → (feed s f).flight = none →
      ∃ t, exec (.disableFeed .reporter tag (.fields f.val)) s = .next t ∧
        (feed t f).state = .off ∧ (feed t f).edits = [] ∧ (feed t f).idleTimer = none ∧ (feed t f).stallTimer = none ∧
        (feed t f).benchHold = (feed s f).benchHold ∧ TxIdle t f ∧
        (∀ l ∈ t.lines.records, l.sent.get f = 0 ∧ l.withdrawSent.get f = false) ∧
        (∃ r, t.reporter.exch = .ready r ∧ r.status = .ok ∧ r.payload = [0#8]) ∧
        OnlyFeedsMove s t) ∧
    (∀ fr, ((feed s f).state = .live ∨ (feed s f).state = .held) → (feed s f).flight = some fr →
      ∃ t, exec (.disableFeed .reporter tag (.fields f.val)) s = .next t ∧
        (feed t f).state = .stopping ∧ (feed t f).flight = some fr ∧ t.lines = s.lines ∧ OnlyFeedsMove s t) ∧
    (∀ n : Nat, (feed s f).state = .off → (feed s f).flight = none → 1 ≤ n → n ≤ 255 →
      ∃ t, exec (.testFeed .reporter tag (.fields { feed := f.val, count := n })) s = .next t ∧
        (feed t f).state = .test ∧
        (s.pins.rdy.get f = false →
          (feed t f).test = some { asked := n, sent := 0, outcome := .running, seq := 0x1FF#9 } ∧ (feed t f).flight = none) ∧
        (s.pins.rdy.get f = true →
          (feed t f).flight = some (.test (testBytes 64 0x1FF#9).1)) ∧
        (∃ r, t.reporter.exch = .ready r ∧ r.status = .ok ∧ r.payload = [0#8]) ∧
        t.lines = s.lines ∧ OnlyFeedsMove s t) ∧
    ((feed s f).state ≠ .off → ∀ n,
      exec (.testFeed .reporter tag (.fields { feed := f.val, count := n })) s =
        .next (answered .reporter .testFeed tag .busy [] (touchPresence .reporter s)))

/-- Hold Feeds and Release Feeds on one feed: the bench hold is set or cleared, a LIVE feed becomes HELD, a HELD feed with no other hold
source becomes LIVE, a feed in another state keeps it. A set of several feeds does so to each feed it names whose hold it changes, and
leaves the hold and the state of every other. A set that names no feed, or one beyond F3, is refused RANGE, and a hold that stands already is
answered ALREADY (R174). That the response reports all four feeds, whatever the set names, is the model's reading (log entry 33). -/
def Obligations.HoldAndReleaseMoveTheFeed : Prop :=
  ∀ (tag : Byte) (s : State) (f : Fin 4), Takes .bench s →
    ((feed s f).benchHold = false →
      ∃ t, exec (.holdFeeds .bench tag (.fields (BitVec.twoPow 8 f.val))) s = .next t ∧ (feed t f).benchHold = true ∧
        (feed t f).state = (if (feed s f).state = .live then .held else (feed s f).state) ∧
        (∃ r, t.bench.exch = .ready r ∧ r.status = .ok) ∧
        OnlyFeedsMove s t) ∧
    ((feed s f).benchHold = true →
      ∃ t, exec (.releaseFeeds .bench tag (.fields (BitVec.twoPow 8 f.val))) s = .next t ∧ (feed t f).benchHold = false ∧
        (¬(f = 3 ∧ s.feeds.gate = true) → (feed t f).state = (if (feed s f).state = .held then .live else (feed s f).state)) ∧
        (∃ r, t.bench.exch = .ready r ∧ r.status = .ok) ∧
        OnlyFeedsMove s t) ∧
    (∀ b : Byte, (b = 0#8 ∨ 16 ≤ b.toNat) →
      exec (.holdFeeds .bench tag (.fields b)) s = .next (answered .bench .holdFeeds tag .range [] (touchPresence .bench s)) ∧
      exec (.releaseFeeds .bench tag (.fields b)) s = .next (answered .bench .releaseFeeds tag .range [] (touchPresence .bench s))) ∧
    ((feed s f).benchHold = true →
      exec (.holdFeeds .bench tag (.fields (BitVec.twoPow 8 f.val))) s =
        .next (answered .bench .holdFeeds tag .already (holdPayload s) (touchPresence .bench s))) ∧
    (∀ b : Byte, b ≠ 0#8 → b.toNat < 16 →
      ((∀ g : Fin 4, b.getLsbD g.val = true → (feed s g).benchHold = true) →
        exec (.holdFeeds .bench tag (.fields b)) s =
          .next (answered .bench .holdFeeds tag .already (holdPayload s) (touchPresence .bench s))) ∧
      ((∀ g : Fin 4, b.getLsbD g.val = true → (feed s g).benchHold = false) →
        exec (.releaseFeeds .bench tag (.fields b)) s =
          .next (answered .bench .releaseFeeds tag .already (holdPayload s) (touchPresence .bench s))) ∧
      ((∃ g : Fin 4, b.getLsbD g.val = true ∧ (feed s g).benchHold = false) →
        ∃ t, exec (.holdFeeds .bench tag (.fields b)) s = .next t ∧
          (∃ r, t.bench.exch = .ready r ∧ r.status = .ok ∧ r.payload = holdPayload t) ∧
          (∀ g : Fin 4, (feed t g).benchHold = ((feed s g).benchHold || b.getLsbD g.val) ∧
            (feed t g).state = (if b.getLsbD g.val = true ∧ (feed s g).benchHold = false ∧ (feed s g).state = .live then .held
              else (feed s g).state)) ∧
          OnlyFeedsMove s t) ∧
      ((∃ g : Fin 4, b.getLsbD g.val = true ∧ (feed s g).benchHold = true) →
        ∃ t, exec (.releaseFeeds .bench tag (.fields b)) s = .next t ∧
          (∃ r, t.bench.exch = .ready r ∧ r.status = .ok ∧ r.payload = holdPayload t) ∧
          (∀ g : Fin 4, (feed t g).benchHold = ((feed s g).benchHold && !b.getLsbD g.val) ∧
            (b.getLsbD g.val = true → (feed s g).benchHold = true → (feed s g).state = .held →
              (feed t g).state = (if g = 3 ∧ s.feeds.gate = true then .held else .live)) ∧
            (b.getLsbD g.val = false ∨ (feed s g).benchHold = false ∨ ((feed s g).state ≠ .held ∧ (feed s g).state ≠ .live) →
              (feed t g).state = (feed s g).state)) ∧
          OnlyFeedsMove s t))

/-- No feed ever has in flight the text of a line more restricted than its audience allows, after every step from a state where none has
(R156). -/
def Obligations.NoRestrictedTextLeavesAFeed : Prop :=
  ∀ (s t : State), NoLeak s → step s = .next t → NoLeak t

/-! ## Marks -/

/-- Set Mark on a SETTLED line makes an ATTACHED record under the next free id and tells the other link; a repeat is answered ALREADY, a full
table refused TABLE_FULL. Remove Mark takes an own record out and tells the other link; a record of the other master is refused NOT_OWNER.
Each mark set asks for a MARK entry and each removed for an UNMARK entry, with the effective class, the line serial, the id, owner and kind,
the page and line, and for a removed one whether it was DETACHED and REVISED (R188, R189, R191, R195, R196). The payload layouts are the model's reading (log entry 16). -/
def Obligations.MarkRequestsChangeTheTable : Prop :=
  ∀ (l : Link) (tag : Byte) (s : State), Takes l s → (s.session.st = .live ∨ s.session.st = .recess) →
    (∀ (a : SetMarkArgs) (k : MarkKind) (ln : Line), MarkKind.ofCode a.kind = some k → (a.label.getD []).length ≤ 12 →
      findLine s.lines.records a.serial = some ln → ln.state = .settled → sameMark s.marks.records l a.serial k = none →
      s.marks.records.length < 64 →
      ∃ t m, exec (.setMark l tag (.fields a)) s = .next t ∧
        m = { id := newId s.marks, owner := l, kind := k, serial := ln.serial, page := ln.page, line := ln.line
              time := s.session.clock, label := a.label.map replaceText, detached := false, revised := false } ∧
        t.marks = { records := insertMark m s.marks.records, lastId := m.id } ∧
        latchHolds .markChanged (t.link (otherLink l)).attn = true ∧
        (∃ r, (t.link l).exch = .ready r ∧ r.status = .ok ∧ r.tag = tag ∧
          r.payload = be 1 m.id ++ be 2 m.page ++ be 1 m.line ++ be 4 m.time ++ be 1 (replacedCount (a.label.getD []))) ∧
        EntryJoins { kind := .mark, attrs := BitVec.ofNat 8 s.cls.effective.code, seq := ln.serial, time := s.session.clock
                     fieldA := m.id * 65536 + (if l = .reporter then 0 else 1) * 256 + a.kind
                     fieldB := ln.page * 256 + ln.line } s t ∧
        OutsideKept s t ∧ t.session = s.session ∧ t.ksu = s.ksu ∧ t.chords = s.chords ∧ t.lines = s.lines ∧ t.feeds = s.feeds ∧
        t.dict = s.dict ∧ t.trans = s.trans ∧ t.cls = s.cls ∧ t.memory = s.memory) ∧
    (∀ (a : SetMarkArgs) (k : MarkKind) (ln : Line) (m : Mark), MarkKind.ofCode a.kind = some k → (a.label.getD []).length ≤ 12 →
      findLine s.lines.records a.serial = some ln → ln.state = .settled → sameMark s.marks.records l a.serial k = some m →
      exec (.setMark l tag (.fields a)) s =
        .next (answered l .setMark tag .already (be 1 m.id ++ be 1 (if m.detached then 1 else 0) ++ [flagByte m.revised])
          (touchPresence l s))) ∧
    (∀ (a : SetMarkArgs) (k : MarkKind) (ln : Line), MarkKind.ofCode a.kind = some k → (a.label.getD []).length ≤ 12 →
      findLine s.lines.records a.serial = some ln → ln.state = .settled → sameMark s.marks.records l a.serial k = none →
      64 ≤ s.marks.records.length →
      exec (.setMark l tag (.fields a)) s = .next (answered l .setMark tag .tableFull [] (touchPresence l s))) ∧
    (∀ (n : Nat) (m : Mark), s.marks.records.find? (fun x => x.id = n) = some m → m.owner = l →
      ∃ t, exec (.removeMark l tag (.fields n)) s = .next t ∧
        t.marks = { s.marks with records := s.marks.records.filter (fun x => x.id ≠ n) } ∧
        latchHolds .markChanged (t.link (otherLink l)).attn = true ∧
        (∃ r, (t.link l).exch = .ready r ∧ r.status = .ok ∧ r.payload = markField m) ∧
        EntryJoins { kind := .unmark, attrs := BitVec.ofNat 8 s.cls.effective.code, seq := m.serial, time := s.session.clock
                     fieldA := m.id * 65536 + (if l = .reporter then 0 else 1) * 256 +
                       (match m.kind with | .issue => 0 | .ruling => 1 | .review => 2)
                     fieldB := m.page * 256 + m.line + (if m.detached then 128 else 0) + (if m.revised then 64 else 0) } s t ∧
        OutsideKept s t ∧ t.session = s.session ∧ t.ksu = s.ksu ∧ t.chords = s.chords ∧ t.lines = s.lines ∧ t.feeds = s.feeds ∧
        t.dict = s.dict ∧ t.trans = s.trans ∧ t.cls = s.cls ∧ t.memory = s.memory) ∧
    (∀ (n : Nat) (m : Mark), s.marks.records.find? (fun x => x.id = n) = some m → m.owner ≠ l →
      exec (.removeMark l tag (.fields n)) s = .next (answered l .removeMark tag .notOwner (markField m) (touchPresence l s))) ∧
    (∀ n : Nat, s.marks.records.find? (fun x => x.id = n) = none →
      exec (.removeMark l tag (.fields n)) s = .next (answered l .removeMark tag .notFound [] (touchPresence l s)))

/-- Every step keeps the Mark Table within 64 records, in its order, with each id once and no two records of the same owner, line serial and
kind; and every step keeps each ATTACHED mark on a SETTLED line that stands in the Line Store (R187). -/
def Obligations.MarkTableStaysSound : Prop :=
  ∀ (s t : State), step s = .next t → (MarksSound s → MarksSound t) ∧ (MarksAttached s → MarksAttached t)

/-! ## Sessions -/

/-- Open Session from STANDBY with none of the four conditions: number 1 up, clock, recess count and stroke counter 0, LIVE, an empty
transcript, an OPEN bench class, SESSION_STATE to both links, and an OPEN entry, which joins the FILLING block or ends what a block opened for
it begins with. Each feed that is LIVE, HELD, STALLED or STOPPING stands at low water 1 and announced-through 0 with its edit queue empty and
its withheld-run flag and out-of-step indication clear; every feed keeps its state, configuration, holds and receiver-seen flag, and a frame in
flight. The conditions refuse the request in their order (R60, R61, R67, R117, R140, R153, R184, R197). In RECESS with a zeroing running R12 says
BUSY; the model answers WRONG_STATE there (log entry 39). -/
def Obligations.OpenSessionStartsAfresh : Prop :=
  ∀ (tag : Byte) (s : State), Takes .reporter s →
    (s.session.st = .standby → s.ksu.zeroing = none → s.session.number < 65535 →
      (s.dict.mainState = .empty ∨ s.dict.mainState = .ready) → s.journal.cond.isFaulted = false →
      ∃ t e, exec (.openSession .reporter tag (.fields ())) s = .next t ∧
        e = { kind := .opn, attrs := BitVec.ofNat 8 (if s.cls.sbar then 1 else 0), seq := 0, time := 0, fieldA := s.session.number + 1
              fieldB := if s.dict.mainState = .empty then 0 else s.dict.main.length } ∧
        EntryJoins e s t ∧
        (∀ i, s.journal.cond = .normal → findFilling s.journal.buffers = none → lowestFree s.journal.buffers = some i →
          s.journal.blockSpent = false → s.journal.nextEntry + 1 < 4294967295 →
          ∃ b, t.journal.buffers = s.journal.buffers.set i (.filling b) ∧ b.seq = s.journal.nextBlock ∧
            b.session = s.session.number + 1 ∧ b.openTime = 0 ∧ b.entries.getLast? = some e ∧
            (s.journal.restartPending = false → b.entries = [e])) ∧
        t.session = { s.session with st := .live, number := s.session.number + 1, clock := 0, recesses := 0 } ∧
        t.chords.strokes = 0 ∧
        t.trans.lookahead = [] ∧ t.trans.history = [] ∧ t.trans.carry = { cap := false, attach := false, glue := false } ∧
        t.trans.timer = none ∧ t.trans.setting = s.trans.setting ∧
        t.lines = { records := [], counter := 0, nextPage := 1, nextLine := 1, openLine := none
                    width := s.lines.width, pageLen := s.lines.pageLen, settle := s.lines.settle } ∧
        t.marks = { records := [], lastId := 0 } ∧
        t.cls = { s.cls with bench := .opn, effective := if s.cls.sbar then .sidebar else .opn } ∧
        (∀ f, (feed t f).state = (feed s f).state ∧ (feed t f).audience = (feed s f).audience ∧ (feed t f).rate = (feed s f).rate ∧
          (feed t f).backfill = (feed s f).backfill ∧ (feed t f).idleInterval = (feed s f).idleInterval ∧
          (feed t f).stallTime = (feed s f).stallTime ∧ (feed t f).benchHold = (feed s f).benchHold ∧
          (feed t f).seen = (feed s f).seen ∧ ((feed s f).flight ≠ none → (feed t f).flight = (feed s f).flight) ∧
          ((feed s f).state = .live ∨ (feed s f).state = .held ∨ (feed s f).state = .stalled ∨ (feed s f).state = .stopping →
            (feed t f).lowWater = 1 ∧ (feed t f).announced = 0 ∧ (feed t f).edits = [] ∧ (feed t f).withheld = false ∧
            (feed t f).outOfStep = false)) ∧
        t.feeds.gate = s.feeds.gate ∧
        latchHolds .sessionState t.reporter.attn = true ∧ latchHolds .sessionState t.bench.attn = true ∧
        t.reporter.exch = .ready { code := 0x30#8, tag := tag, status := .ok, payload := be 2 (s.session.number + 1) } ∧
        (∀ i, (keyAt t i).ignore = ((keyAt s i).ignore || (keyAt s i).isActive)) ∧
        OutsideKept s t ∧ t.dict = s.dict ∧ t.memory = s.memory) ∧
    (s.session.st ≠ .standby →
      exec (.openSession .reporter tag (.fields ())) s =
        .next (answered .reporter .openSession tag .wrongState [] (touchPresence .reporter s))) ∧
    (s.session.st = .standby → s.ksu.zeroing ≠ none →
      exec (.openSession .reporter tag (.fields ())) s =
        .next (answered .reporter .openSession tag .busy [] (touchPresence .reporter s))) ∧
    (s.session.st = .standby → s.ksu.zeroing = none → 65535 ≤ s.session.number →
      exec (.openSession .reporter tag (.fields ())) s =
        .next (answered .reporter .openSession tag .range [] (touchPresence .reporter s))) ∧
    (s.session.st = .standby → s.ksu.zeroing = none → s.session.number < 65535 →
      (s.dict.mainState = .loading ∨ s.dict.mainState = .building) →
      exec (.openSession .reporter tag (.fields ())) s =
        .next (answered .reporter .openSession tag .wrongState [] (touchPresence .reporter s))) ∧
    (s.session.st = .standby → s.ksu.zeroing = none → s.session.number < 65535 →
      (s.dict.mainState = .empty ∨ s.dict.mainState = .ready) → s.journal.cond.isFaulted = true →
      exec (.openSession .reporter tag (.fields ())) s =
        .next (answered .reporter .openSession tag .journalFault [] (touchPresence .reporter s)))

/-- Recess, Resume, Close Session and Reset Part where they are taken: the state they give, the recess count, the chord abandoned with the ignore
mark on every key pressed, the Translator flushed, the notice to both links and the response OK; each but Reset Part asks for its entry, with
the effective class, the stroke counter, the session number and the recess count, and Recess and Close Session close the block with it; after a
Close Session the session is CLOSING while a buffer is QUEUED or WRITING and STANDBY where none is or the journal is FAULTED; Reset Part sets
its 100 ms. Where a state does not take one it is answered ALREADY or WRONG_STATE, and BUSY in RECESS while a zeroing runs, with nothing changed
(R19, R59, R62, R63, R64, R65, R67, R68, R115). That WRONG_STATE goes before the BUSY of a zeroing in STANDBY is the model's choice (log entry
39). -/
def Obligations.SessionRequestsMoveTheState : Prop :=
  ∀ (tag : Byte) (s : State), Takes .reporter s →
    (s.session.st = .live →
      ∃ t, exec (.recess .reporter tag (.fields ())) s = .next t ∧
        t.session = { s.session with
          st := .recess, recesses := if s.session.recesses < 16777215 then s.session.recesses + 1 else 16777215 } ∧
        t.chords = { s.chords with chord := none } ∧
        (s.chords.chord = none → t.ksu = s.ksu) ∧
        (s.chords.chord ≠ none → ∀ i, keyAt t i =
          { keyAt s i with ignore := (keyAt s i).ignore || (keyAt s i).isActive, touched := false }) ∧
        t.trans.lookahead = [] ∧ t.trans.history = [] ∧ t.trans.timer = none ∧
        t.lines.openLine = none ∧ latchHolds .sessionState t.reporter.attn = true ∧ latchHolds .sessionState t.bench.attn = true ∧
        t.reporter.exch = .ready { code := 0x31#8, tag := tag, status := .ok, payload := [] } ∧
        EntryCloses { kind := .recess, attrs := BitVec.ofNat 8 s.cls.effective.code, seq := s.chords.strokes, time := s.session.clock
                      fieldA := s.session.number, fieldB := t.session.recesses } .recess s t ∧
        OutsideKept s t ∧ t.dict = s.dict ∧ t.cls = s.cls ∧ t.memory = s.memory) ∧
    (s.session.st = .recess → s.ksu.zeroing = none →
      ∃ t, exec (.resume .reporter tag (.fields ())) s = .next t ∧
        t.session = { s.session with st := .live } ∧ t.chords = s.chords ∧ t.trans = s.trans ∧ t.lines = s.lines ∧
        (∀ i, (keyAt t i).ignore = ((keyAt s i).ignore || (keyAt s i).isActive)) ∧
        latchHolds .sessionState t.reporter.attn = true ∧ latchHolds .sessionState t.bench.attn = true ∧
        t.reporter.exch = .ready { code := 0x32#8, tag := tag, status := .ok, payload := [] } ∧
        EntryJoins { kind := .resume, attrs := BitVec.ofNat 8 s.cls.effective.code, seq := s.chords.strokes, time := s.session.clock
                     fieldA := s.session.number, fieldB := s.session.recesses } s t ∧
        OutsideKept s t ∧ t.dict = s.dict ∧ t.cls = s.cls ∧ t.memory = s.memory ∧ t.feeds = s.feeds ∧ t.marks = s.marks) ∧
    ((s.session.st = .live ∨ (s.session.st = .recess ∧ s.ksu.zeroing = none)) →
      ∃ t, exec (.closeSession .reporter tag (.fields ())) s = .next t ∧
        ((∃ j, 2 ≤ (t.journal.buffers.get j).code) → t.journal.cond.isFaulted = false →
          t.session = { s.session with st := .closing }) ∧
        ((∀ j, (t.journal.buffers.get j).code ≤ 1) ∨ t.journal.cond.isFaulted = true →
          t.session = { s.session with st := .standby }) ∧
        t.chords = { s.chords with chord := none } ∧
        (s.chords.chord = none → t.ksu = s.ksu) ∧
        (s.chords.chord ≠ none → ∀ i, keyAt t i =
          { keyAt s i with ignore := (keyAt s i).ignore || (keyAt s i).isActive, touched := false }) ∧
        t.trans.lookahead = [] ∧ t.trans.history = [] ∧
        t.trans.carry = { cap := false, attach := false, glue := false } ∧ t.lines.openLine = none ∧
        t.dict = { s.dict with group := none } ∧
        (s.dict.group ≠ none → latchHolds .groupDiscarded t.reporter.attn = true) ∧
        (s.journal.cond.isFaulted = true → t.session.st = .standby) ∧
        latchHolds .sessionState t.reporter.attn = true ∧ latchHolds .sessionState t.bench.attn = true ∧
        t.reporter.exch = .ready { code := 0x33#8, tag := tag, status := .ok, payload := [] } ∧
        EntryCloses { kind := .close, attrs := BitVec.ofNat 8 s.cls.effective.code, seq := s.chords.strokes, time := s.session.clock
                      fieldA := s.session.number, fieldB := s.session.recesses } .close s t ∧
        OutsideKept s t ∧ t.cls = s.cls ∧ t.memory = s.memory) ∧
    (exec (.resetPart .reporter tag (.fields ())) s =
      .next (answered .reporter .resetPart tag .ok []
        { touchPresence .reporter s with session := { s.session with resetPartDue := some (s.now + 100) } })) ∧
    (s.session.st = .recess → s.ksu.zeroing ≠ none →
      exec (.resume .reporter tag (.fields ())) s =
        .next (answered .reporter .resume tag .busy [] (touchPresence .reporter s))) ∧
    (s.session.st = .recess → s.ksu.zeroing ≠ none →
      exec (.closeSession .reporter tag (.fields ())) s =
        .next (answered .reporter .closeSession tag .busy [] (touchPresence .reporter s))) ∧
    (s.session.st = .recess →
      exec (.recess .reporter tag (.fields ())) s =
        .next (answered .reporter .recess tag .already [] (touchPresence .reporter s))) ∧
    (s.session.st = .live →
      exec (.resume .reporter tag (.fields ())) s =
        .next (answered .reporter .resume tag .already [] (touchPresence .reporter s))) ∧
    (s.session.st = .closing →
      exec (.closeSession .reporter tag (.fields ())) s =
        .next (answered .reporter .closeSession tag .already [] (touchPresence .reporter s))) ∧
    (s.session.st = .standby ∨ s.session.st = .closing →
      exec (.recess .reporter tag (.fields ())) s =
        .next (answered .reporter .recess tag .wrongState [] (touchPresence .reporter s)) ∧
      exec (.resume .reporter tag (.fields ())) s =
        .next (answered .reporter .resume tag .wrongState [] (touchPresence .reporter s))) ∧
    (s.session.st = .standby →
      exec (.closeSession .reporter tag (.fields ())) s =
        .next (answered .reporter .closeSession tag .wrongState [] (touchPresence .reporter s)))

/-! ## The links -/

/-- The requests that read answer with their payload, and change nothing beyond the response and what the frame's arrival does to presence: Get
Status, Read Key Depths, Journal Summary, Look Up, Read Lines, List Marks and Read Feed Health (R6, R49, R90, R138, R183, R192, R208). A key
resolves to the job tier's entry, to nothing under a suppressing one, else to the entry of a READY main tier, and is extendable while a longer
key that it begins is held by a READY main tier or by a job entry that does not suppress (R88, R89). Look Up refuses an invalid key KEY_INVALID
(R71) and a set with bit 23 set RANGE (R217); that RANGE comes first is the model's reading (log entry 20). The payload layouts are the model's
reading (log entries 16, 42, 48 to 53, 57 and 58). -/
def Obligations.ReadsChangeNothing : Prop :=
  ∀ (l : Link) (tag : Byte) (s : State), Takes l s →
    exec (.getStatus l tag (.fields ())) s =
      .next (answered l .getStatus tag .ok (statusPayload (touchPresence l s)) (touchPresence l s)) ∧
    exec (.readFeedHealth l tag (.fields ())) s =
      .next (answered l .readFeedHealth tag .ok ([0, 1, 2, 3].flatMap (healthField l (touchPresence l s))) (touchPresence l s)) ∧
    (∀ a : ListMarksArgs, a.filter < 3 →
      exec (.listMarks l tag (.fields a)) s =
        .next (answered l .listMarks tag .ok (listPayload a s.marks.records) (touchPresence l s))) ∧
    (∀ a : ListMarksArgs, 3 ≤ a.filter →
      exec (.listMarks l tag (.fields a)) s = .next (answered l .listMarks tag .range [] (touchPresence l s))) ∧
    (∀ n c : Nat, exec (.readLines l tag (.fields { start := .serial n, count := c })) s =
      .next (answered l .readLines tag .ok
        (readLinesPayload { start := .serial n, count := c } (s.lines.records.filter (fun x => n ≤ x.serial)) s.lines)
        (touchPresence l s))) ∧
    (∀ (p n c : Nat) (x : Line), underNumber (clampTo 1 65535 p) (clampTo 1 30 n) s.lines.records = some x →
      exec (.readLines l tag (.fields { start := .pageLine p n, count := c })) s =
        .next (answered l .readLines tag .ok
          (readLinesPayload { start := .pageLine p n, count := c } (s.lines.records.filter (fun y => x.serial ≤ y.serial)) s.lines)
          (touchPresence l s))) ∧
    (∀ p n c : Nat, underNumber (clampTo 1 65535 p) (clampTo 1 30 n) s.lines.records = none →
      exec (.readLines l tag (.fields { start := .pageLine p n, count := c })) s =
        .next (answered l .readLines tag .notFound [] (touchPresence l s))) ∧
    (l = .reporter →
      (∀ k : List (BitVec 24), (∃ x ∈ k, badSet x = true) →
        exec (.lookUp l tag (.fields k)) s = .next (answered l .lookUp tag .range [] (touchPresence l s))) ∧
      (∀ k : List (BitVec 24), (∀ x ∈ k, badSet x = false) → keyInvalid (k.map toKeySet) = true →
        exec (.lookUp l tag (.fields k)) s = .next (answered l .lookUp tag .keyInvalid [] (touchPresence l s))) ∧
      exec (.readKeyDepths l tag (.fields ())) s =
        .next (answered l .readKeyDepths tag .ok (depthsPayload s) (touchPresence l s)) ∧
      exec (.journalSummary l tag (.fields ())) s =
        .next (answered l .journalSummary tag .ok (summaryPayload s) (touchPresence l s)) ∧
      ∀ k : List (BitVec 24), (∀ x ∈ k, badSet x = false) → keyInvalid (k.map toKeySet) = false →
        exec (.lookUp l tag (.fields k)) s =
          .next (answered l .lookUp tag .ok (lookUpPayload s.dict (k.map toKeySet)) (touchPresence l s))) ∧
    (∀ (d : Dict) (key : List KeySet) (e : DictEntry),
      (d.job.find? (fun x => x.key = key) = some e → e.fmt.suppress = false →
        resolve d key = .job e ∧ (resolve d key).entry = some e) ∧
      (d.job.find? (fun x => x.key = key) = some e → e.fmt.suppress = true → resolve d key = .none ∧ (resolve d key).entry = none) ∧
      (d.job.find? (fun x => x.key = key) = none → d.mainState = .ready → d.main.find? (fun x => x.key = key) = some e →
        resolve d key = .main e ∧ (resolve d key).entry = some { e with fmt := { e.fmt with suppress := false } }) ∧
      (d.job.find? (fun x => x.key = key) = none → (d.mainState ≠ .ready ∨ d.main.find? (fun x => x.key = key) = none) →
        resolve d key = .none ∧ (resolve d key).entry = none) ∧
      (extendable d key = true ↔
        ∃ x : DictEntry, ((x ∈ d.main ∧ d.mainState = .ready) ∨ (x ∈ d.job ∧ x.fmt.suppress = false)) ∧
          key.length < x.key.length ∧ x.key.take key.length = key))

/-- Read Attention answers with the flag word, the latched codes and the SBAR indication of its own link, empties that link's latch set, sets
its latched codes to the current ones, and leaves the other link as it stands but for what the frame's arrival told it (R182, R209). -/
def Obligations.ReadAttentionEmptiesOwnLatch : Prop :=
  ∀ (l : Link) (tag : Byte) (s : State), Takes l s →
    ∃ t, exec (.readAttention l tag (.fields ())) s = .next t ∧
      (t.link l).attn = 0#20 ∧ (∀ f, (t.link l).latched.get f = (feed s f).health) ∧
      (t.link l).exch = .ready {
        code := 0x02#8, tag := tag, status := .ok
        payload := be 4 (s.link l).attn.toNat ++ (s.link l).latched.toList.flatMap (fun h => be 1 h.code) ++ [flagByte s.cls.sbar] } ∧
      t.link (otherLink l) = (touchPresence l s).link (otherLink l) ∧
      t = { s with reporter := t.reporter, bench := t.bench }

/-- Set Translation Parameters with all eight values given, each clamped to its range: in STANDBY all are applied; in LIVE, RECESS and CLOSING the
line width, page length and settle depth keep their settings. With no value given nothing changes (R97, R121, R145, R207). -/
def Obligations.ParametersAreApplied : Prop :=
  ∀ (tag : Byte) (s : State) (r w p d i g rp bp : Nat), Takes .reporter s →
    (∃ t pay, exec (.setTranslationParameters .reporter tag (.fields
        { resolution := some r, width := some w, pageLen := some p, settle := some d, interval := some i, deglitch := some g
          repPresence := some rp, benchPresence := some bp })) s =
      .next (answered .reporter .setTranslationParameters tag .ok pay t) ∧
      t = { touchPresence .reporter s with
        trans := { s.trans with setting := if r = 0 then 0 else clampTo 100 5000 r }
        lines :=
          if s.session.st = .standby then
            { s.lines with width := clampTo 24 64 w, pageLen := clampTo 20 30 p, settle := clampTo 1 4 d }
          else s.lines
        journal := { s.journal with interval := clampTo 250 10000 i }
        cls := { s.cls with setting := clampTo 0 255 g }
        reporter := { (touchPresence .reporter s).reporter with presenceTime := clampTo 500 10000 rp }
        bench := { (touchPresence .reporter s).bench with presenceTime := clampTo 500 10000 bp } }) ∧
    (∃ pay, exec (.setTranslationParameters .reporter tag (.fields
        { resolution := none, width := none, pageLen := none, settle := none, interval := none, deglitch := none
          repPresence := none, benchPresence := none })) s =
      .next (answered .reporter .setTranslationParameters tag .ok pay (touchPresence .reporter s)))

/-- A fetch on a READY link sends the response with both link flags, then zeros; a whole read leaves the link IDLE with the discard indication
clear, a partial one leaves it READY; on a link that is not READY, and while RSTN is held, it sends zeros; a whole read on the reporter link
brings the warm reset of a taken Reset Part (R68, R200, R204, R214). The bytes sent are read in the model's own field `fetched` (log entry
25). -/
def Obligations.FetchSendsTheResponse : Prop :=
  ∀ (l : Link) (n : Nat) (s : State), 0 < n →
    (s.pins.rstnHeld = true →
      exec (.fetch l n) s = .next (s.setLink l { s.link l with fetched := List.replicate n 0#8 })) ∧
    (∀ r, s.pins.rstnHeld = false → (s.link l).exch = .ready r → r.size ≤ n → (l = .bench ∨ s.session.resetPartDue = none) →
      exec (.fetch l n) s = .next (s.setLink l { s.link l with
        exch := .idle, discard := false
        fetched := r.bytes ((s.link l).attn ≠ 0) (s.link l).discard ++ List.replicate (n - r.size) 0#8 })) ∧
    (∀ r, s.pins.rstnHeld = false → (s.link l).exch = .ready r → n < r.size →
      exec (.fetch l n) s = .next (s.setLink l { s.link l with
        fetched := (r.bytes ((s.link l).attn ≠ 0) (s.link l).discard).take n })) ∧
    (s.pins.rstnHeld = false → (∀ r, (s.link l).exch ≠ .ready r) →
      exec (.fetch l n) s = .next (s.setLink l { s.link l with fetched := List.replicate n 0#8 })) ∧
    (∀ r, s.pins.rstnHeld = false → s.reporter.exch = .ready r → r.size ≤ n → s.session.resetPartDue ≠ none →
      ∃ t, exec (.fetch .reporter n) s = .next t ∧ t.session.st = .start ∧ t.session.cause = .resetPart ∧ t.reporter.exch = .idle ∧
        t.bench.exch = .idle ∧ t.reporter.attn = 1#20 ∧ t.bench.attn = 1#20)

/-- Frames that reach no block. A malformed frame in IDLE is answered FRAME_ERROR with its first two bytes, and on a busy link it sets the
discard indication; neither touches presence. A frame of agreeing length, with whatever code and payload, that meets an EXECUTING or READY
link is discarded: the indication is set, the request held or the response waiting is not disturbed, and presence is restarted or restored.
During every request write 0x00 stands on data out; while RSTN is held the transfer is ignored, and a transfer under chip select when a reset
arrives makes no command (R200, R203, R205, R214). The bytes on data out are read in the model's own field `fetched` (log entry 25), and a
transfer is whole when it makes its command (log entry 46). -/
def Obligations.FramesThatReachNoBlock : Prop :=
  ∀ (l : Link) (s : State),
   (s.pins.rstnHeld = true → ∀ (tag code b : Byte) (bs rest : List Byte) (r : Req), b ≠ 0#8 →
      exec (decodeRequest l tag bs r) s = .next (s.setLink l { s.link l with fetched := [] }) ∧
      (unknownCode code = true → exec (.unknownRequest l code tag) s = .next (s.setLink l { s.link l with fetched := [] })) ∧
      exec (.frameDiscarded l (b :: rest)) s = .next (s.setLink l { s.link l with fetched := [] }) ∧
      (malformed (b :: rest) = true →
        exec (.frameError l (b :: rest)) s = .next (s.setLink l { s.link l with fetched := [] }))) ∧
   (∀ (idle : Bool) (bytes : List Byte), ({ link := l, bytes := bytes, cutByReset := true } : Transfer).command idle = none) ∧
   (s.pins.rstnHeld = false →
    (∀ i, dataOut (touchPresence l s) l i = 0#8) ∧
    (∀ (b : Byte) (rest : List Byte), b ≠ 0#8 → malformed (b :: rest) = true →
      ((s.link l).exch = .idle →
        exec (.frameError l (b :: rest)) s = .next (s.setLink l { s.link l with
          fetched := []
          exch := .ready { code := b, tag := rest.headD 0#8, status := .frameError, payload := [] } })) ∧
      ((s.link l).exch ≠ .idle →
        exec (.frameError l (b :: rest)) s = .next (s.setLink l { s.link l with discard := true, fetched := [] }) ∧
        exec (.frameDiscarded l (b :: rest)) s = .next (s.setLink l { s.link l with discard := true, fetched := [] }))) ∧
    ((s.link l).exch ≠ .idle →
      (∀ (tag : Byte) (bs : List Byte) (r : Req), exec (decodeRequest l tag bs r) s = .next (discardFrame l (touchPresence l s))) ∧
      (∀ (code tag : Byte), unknownCode code = true →
        exec (.unknownRequest l code tag) s = .next (discardFrame l (touchPresence l s))) ∧
      (∀ (b : Byte) (rest : List Byte), b ≠ 0#8 → malformed (b :: rest) = false →
        exec (.frameDiscarded l (b :: rest)) s = .next (discardFrame l (touchPresence l s))) ∧
      ((discardFrame l (touchPresence l s)).link l).exch = (s.link l).exch ∧
      ((discardFrame l (touchPresence l s)).link l).discard = true ∧
      (s.session.st ≠ .start →
        ((discardFrame l (touchPresence l s)).link l).present = true ∧
        ((discardFrame l (touchPresence l s)).link l).timer = some (s.now + (s.link l).presenceTime))))

/-- The checks of R201 in their order, for every request frame on an IDLE link: in START all but Get Status are answered NOT_READY; past START
an unknown code is answered UNKNOWN_REQUEST, a request of the other link NOT_PERMITTED, and a payload on a request that carries none RANGE.
None reaches a block. That in START the frame leaves 0x00 on data out and nothing else of presence is read in the model's own field `fetched`
(log entry 25). -/
def Obligations.LinkChecksComeInOrder : Prop :=
  ∀ (l : Link) (tag : Byte) (bs : List Byte) (r : Req) (s : State), s.pins.rstnHeld = false → (s.link l).exch = .idle →
    (s.session.st = .start → r ≠ .getStatus →
      exec (decodeRequest l tag bs r) s = .next (answered l r tag .notReady [] (touchPresence l s))) ∧
    (s.session.st = .start → touchPresence l s = s.setLink l { s.link l with fetched := [] } ∧
      exec (.getStatus l tag (.fields ())) s = .next (answered l .getStatus tag .ok (statusPayload s) (touchPresence l s))) ∧
    (s.session.st ≠ .start → r.carriedBy l = false →
      exec (decodeRequest l tag bs r) s = .next (answered l r tag .notPermitted [] (touchPresence l s))) ∧
    (s.session.st ≠ .start → ∀ code, unknownCode code = true →
      exec (.unknownRequest l code tag) s = .next ((touchPresence l s).setLink l { (touchPresence l s).link l with
        exch := .ready { code := code, tag := tag, status := .unknownRequest, payload := [] } })) ∧
    (s.session.st = .start → ∀ code, unknownCode code = true →
      exec (.unknownRequest l code tag) s = .next ((touchPresence l s).setLink l { (touchPresence l s).link l with
        exch := .ready { code := code, tag := tag, status := .notReady, payload := [] } })) ∧
    (s.session.st ≠ .start → r.carriedBy l = true → bs ≠ [] →
      r ∈ [.getStatus, .readAttention, .readFeedHealth, .zeroKeys, .readKeyDepths, .beginMainLoad, .endMainLoad, .openGroup, .commitGroup,
        .abandonGroup, .clearJobTier, .openSession, .recess, .resume, .closeSession, .resetPart, .closeJournalBlock, .journalSummary] →
      exec (decodeRequest l tag bs r) s = .next (answered l r tag .range [] (touchPresence l s)))

/-- A presence timer's expiry makes the link ABSENT with its timer stopped and tells the other link; the loss of the reporter discards an open
group, with GROUP_DISCARDED, and the loss of the bench leaves the class as it stands; before its time nothing occurs (R87, R154, R212). That
an expiry before its time does not occur is the model's choice (log entry 2). -/
def Obligations.PresenceLossIsTold : Prop :=
  ∀ (s : State) (e : Nat),
    (∀ g, s.reporter.timer = some e → e ≤ s.now → s.dict.group = some g →
      exec (.presenceTimerExpiry .reporter) s = .next { s with
        reporter := { s.reporter with present := false, timer := none, attn := latch .groupDiscarded s.reporter.attn }
        bench := { s.bench with attn := latch .reporterPresence s.bench.attn }
        dict := { s.dict with group := none } }) ∧
    (s.reporter.timer = some e → e ≤ s.now → s.dict.group = none →
      exec (.presenceTimerExpiry .reporter) s = .next { s with
        reporter := { s.reporter with present := false, timer := none }
        bench := { s.bench with attn := latch .reporterPresence s.bench.attn } }) ∧
    (s.bench.timer = some e → e ≤ s.now →
      exec (.presenceTimerExpiry .bench) s = .next { s with
        bench := { s.bench with present := false, timer := none }
        reporter := { s.reporter with attn := latch .benchPresence s.reporter.attn } }) ∧
    (∀ l : Link, (s.link l).timer = some e → s.now < e → exec (.presenceTimerExpiry l) s = .next s)

/-- A flag once latched stays in its link's latch set through every command but a Read Attention and the resets; a fetch can bring a reset
only after a Reset Part was taken (R68, R209, R210). -/
def Obligations.LatchedFlagsAreNeverLost : Prop :=
  ∀ (c : Instr) (s t : State),
    (mayClearFlags c = false ∨ (∃ l n, c = .fetch l n) ∧ s.session.resetPartDue = none) → exec c s = .next t → FlagsKept s t

/-! ## Formats -/

/-- A well-formed request, encoded as R216 and R217 lay down and written to its IDLE link (R200), is read back as the same request: no bit of a
field is dropped. The byte that tells Read Lines' two kinds of starting point apart is the model's own (log entry 18). -/
def Obligations.EncodedRequestsDecode : Prop :=
  ∀ (i : Instr) (l : Link) (bytes : List Byte), i.wf = true → encodeRequest i = some (l, bytes) →
    decodeTransfer l true bytes = some i

/-- The invariants hold after reset: the stores are canonical, the class is formed, no chord is open outside LIVE, no feed holds restricted
text, the Mark Table is sound and its marks attached (R24, R155, R185, R198). The canonical form of the stores and a memory that holds nothing at reset are the model's
own (log entries 3 and 38). -/
def Obligations.ResetMeetsTheInvariants : Prop :=
  StoresCanonical State.reset ∧ ClassFormed State.reset ∧ ChordInLive State.reset ∧ NoLeak State.reset ∧ MarksSound State.reset ∧
    MarksAttached State.reset
end

