-- ==== Sys2Proof/Laws/State.lean ====
section
/-! SUPPORT. For each named update of the state, one lemma per field: what the update leaves, and what it sets. No later proof unfolds a record
update. -/

namespace Sys2Proof.Machine

/-! ### setDict -/

@[simp] theorem setDict_ksu (d : Dict) (s : State) : (setDict d s).ksu = s.ksu := rfl
@[simp] theorem setDict_chords (d : Dict) (s : State) : (setDict d s).chords = s.chords := rfl
@[simp] theorem setDict_session (d : Dict) (s : State) : (setDict d s).session = s.session := rfl
@[simp] theorem setDict_journal (d : Dict) (s : State) : (setDict d s).journal = s.journal := rfl
@[simp] theorem setDict_memory (d : Dict) (s : State) : (setDict d s).memory = s.memory := rfl
@[simp] theorem setDict_dict (d : Dict) (s : State) : (setDict d s).dict = d := rfl
@[simp] theorem setDict_trans (d : Dict) (s : State) : (setDict d s).trans = s.trans := rfl
@[simp] theorem setDict_lines (d : Dict) (s : State) : (setDict d s).lines = s.lines := rfl
@[simp] theorem setDict_cls (d : Dict) (s : State) : (setDict d s).cls = s.cls := rfl
@[simp] theorem setDict_feeds (d : Dict) (s : State) : (setDict d s).feeds = s.feeds := rfl
@[simp] theorem setDict_marks (d : Dict) (s : State) : (setDict d s).marks = s.marks := rfl
@[simp] theorem setDict_reporter (d : Dict) (s : State) : (setDict d s).reporter = s.reporter := rfl
@[simp] theorem setDict_bench (d : Dict) (s : State) : (setDict d s).bench = s.bench := rfl
@[simp] theorem setDict_pins (d : Dict) (s : State) : (setDict d s).pins = s.pins := rfl
@[simp] theorem setDict_now (d : Dict) (s : State) : (setDict d s).now = s.now := rfl
@[simp] theorem setDict_events (d : Dict) (s : State) : (setDict d s).events = s.events := rfl
@[simp] theorem setDict_pending (d : Dict) (s : State) : (setDict d s).pending = s.pending := rfl

/-! ### setTrans -/

@[simp] theorem setTrans_ksu (t : Translator) (s : State) : (setTrans t s).ksu = s.ksu := rfl
@[simp] theorem setTrans_chords (t : Translator) (s : State) : (setTrans t s).chords = s.chords := rfl
@[simp] theorem setTrans_session (t : Translator) (s : State) : (setTrans t s).session = s.session := rfl
@[simp] theorem setTrans_journal (t : Translator) (s : State) : (setTrans t s).journal = s.journal := rfl
@[simp] theorem setTrans_memory (t : Translator) (s : State) : (setTrans t s).memory = s.memory := rfl
@[simp] theorem setTrans_dict (t : Translator) (s : State) : (setTrans t s).dict = s.dict := rfl
@[simp] theorem setTrans_trans (t : Translator) (s : State) : (setTrans t s).trans = t := rfl
@[simp] theorem setTrans_lines (t : Translator) (s : State) : (setTrans t s).lines = s.lines := rfl
@[simp] theorem setTrans_cls (t : Translator) (s : State) : (setTrans t s).cls = s.cls := rfl
@[simp] theorem setTrans_feeds (t : Translator) (s : State) : (setTrans t s).feeds = s.feeds := rfl
@[simp] theorem setTrans_marks (t : Translator) (s : State) : (setTrans t s).marks = s.marks := rfl
@[simp] theorem setTrans_reporter (t : Translator) (s : State) : (setTrans t s).reporter = s.reporter := rfl
@[simp] theorem setTrans_bench (t : Translator) (s : State) : (setTrans t s).bench = s.bench := rfl
@[simp] theorem setTrans_pins (t : Translator) (s : State) : (setTrans t s).pins = s.pins := rfl
@[simp] theorem setTrans_now (t : Translator) (s : State) : (setTrans t s).now = s.now := rfl
@[simp] theorem setTrans_events (t : Translator) (s : State) : (setTrans t s).events = s.events := rfl
@[simp] theorem setTrans_pending (t : Translator) (s : State) : (setTrans t s).pending = s.pending := rfl

/-! ### setRecords -/

@[simp] theorem setRecords_ksu (rs : List Line) (s : State) : (setRecords rs s).ksu = s.ksu := rfl
@[simp] theorem setRecords_chords (rs : List Line) (s : State) : (setRecords rs s).chords = s.chords := rfl
@[simp] theorem setRecords_session (rs : List Line) (s : State) : (setRecords rs s).session = s.session := rfl
@[simp] theorem setRecords_journal (rs : List Line) (s : State) : (setRecords rs s).journal = s.journal := rfl
@[simp] theorem setRecords_memory (rs : List Line) (s : State) : (setRecords rs s).memory = s.memory := rfl
@[simp] theorem setRecords_dict (rs : List Line) (s : State) : (setRecords rs s).dict = s.dict := rfl
@[simp] theorem setRecords_trans (rs : List Line) (s : State) : (setRecords rs s).trans = s.trans := rfl
@[simp] theorem setRecords_lines (rs : List Line) (s : State) : (setRecords rs s).lines = { s.lines with records := rs } := rfl
@[simp] theorem setRecords_cls (rs : List Line) (s : State) : (setRecords rs s).cls = s.cls := rfl
@[simp] theorem setRecords_feeds (rs : List Line) (s : State) : (setRecords rs s).feeds = s.feeds := rfl
@[simp] theorem setRecords_marks (rs : List Line) (s : State) : (setRecords rs s).marks = s.marks := rfl
@[simp] theorem setRecords_reporter (rs : List Line) (s : State) : (setRecords rs s).reporter = s.reporter := rfl
@[simp] theorem setRecords_bench (rs : List Line) (s : State) : (setRecords rs s).bench = s.bench := rfl
@[simp] theorem setRecords_pins (rs : List Line) (s : State) : (setRecords rs s).pins = s.pins := rfl
@[simp] theorem setRecords_now (rs : List Line) (s : State) : (setRecords rs s).now = s.now := rfl
@[simp] theorem setRecords_events (rs : List Line) (s : State) : (setRecords rs s).events = s.events := rfl
@[simp] theorem setRecords_pending (rs : List Line) (s : State) : (setRecords rs s).pending = s.pending := rfl

/-! ### setOpenLine -/

@[simp] theorem setOpenLine_ksu (o : Option Nat) (s : State) : (setOpenLine o s).ksu = s.ksu := rfl
@[simp] theorem setOpenLine_chords (o : Option Nat) (s : State) : (setOpenLine o s).chords = s.chords := rfl
@[simp] theorem setOpenLine_session (o : Option Nat) (s : State) : (setOpenLine o s).session = s.session := rfl
@[simp] theorem setOpenLine_journal (o : Option Nat) (s : State) : (setOpenLine o s).journal = s.journal := rfl
@[simp] theorem setOpenLine_memory (o : Option Nat) (s : State) : (setOpenLine o s).memory = s.memory := rfl
@[simp] theorem setOpenLine_dict (o : Option Nat) (s : State) : (setOpenLine o s).dict = s.dict := rfl
@[simp] theorem setOpenLine_trans (o : Option Nat) (s : State) : (setOpenLine o s).trans = s.trans := rfl
@[simp] theorem setOpenLine_lines (o : Option Nat) (s : State) : (setOpenLine o s).lines = { s.lines with openLine := o } := rfl
@[simp] theorem setOpenLine_cls (o : Option Nat) (s : State) : (setOpenLine o s).cls = s.cls := rfl
@[simp] theorem setOpenLine_feeds (o : Option Nat) (s : State) : (setOpenLine o s).feeds = s.feeds := rfl
@[simp] theorem setOpenLine_marks (o : Option Nat) (s : State) : (setOpenLine o s).marks = s.marks := rfl
@[simp] theorem setOpenLine_reporter (o : Option Nat) (s : State) : (setOpenLine o s).reporter = s.reporter := rfl
@[simp] theorem setOpenLine_bench (o : Option Nat) (s : State) : (setOpenLine o s).bench = s.bench := rfl
@[simp] theorem setOpenLine_pins (o : Option Nat) (s : State) : (setOpenLine o s).pins = s.pins := rfl
@[simp] theorem setOpenLine_now (o : Option Nat) (s : State) : (setOpenLine o s).now = s.now := rfl
@[simp] theorem setOpenLine_events (o : Option Nat) (s : State) : (setOpenLine o s).events = s.events := rfl
@[simp] theorem setOpenLine_pending (o : Option Nat) (s : State) : (setOpenLine o s).pending = s.pending := rfl

/-! ### setFeedCtx -/

@[simp] theorem setFeedCtx_ksu (f : Fin 4) (c : Feed) (s : State) : (setFeedCtx f c s).ksu = s.ksu := rfl
@[simp] theorem setFeedCtx_chords (f : Fin 4) (c : Feed) (s : State) : (setFeedCtx f c s).chords = s.chords := rfl
@[simp] theorem setFeedCtx_session (f : Fin 4) (c : Feed) (s : State) : (setFeedCtx f c s).session = s.session := rfl
@[simp] theorem setFeedCtx_journal (f : Fin 4) (c : Feed) (s : State) : (setFeedCtx f c s).journal = s.journal := rfl
@[simp] theorem setFeedCtx_memory (f : Fin 4) (c : Feed) (s : State) : (setFeedCtx f c s).memory = s.memory := rfl
@[simp] theorem setFeedCtx_dict (f : Fin 4) (c : Feed) (s : State) : (setFeedCtx f c s).dict = s.dict := rfl
@[simp] theorem setFeedCtx_trans (f : Fin 4) (c : Feed) (s : State) : (setFeedCtx f c s).trans = s.trans := rfl
@[simp] theorem setFeedCtx_lines (f : Fin 4) (c : Feed) (s : State) : (setFeedCtx f c s).lines = s.lines := rfl
@[simp] theorem setFeedCtx_cls (f : Fin 4) (c : Feed) (s : State) : (setFeedCtx f c s).cls = s.cls := rfl
@[simp] theorem setFeedCtx_feeds (f : Fin 4) (c : Feed) (s : State) : (setFeedCtx f c s).feeds = { s.feeds with ctx := s.feeds.ctx.set f c } := rfl
@[simp] theorem setFeedCtx_marks (f : Fin 4) (c : Feed) (s : State) : (setFeedCtx f c s).marks = s.marks := rfl
@[simp] theorem setFeedCtx_reporter (f : Fin 4) (c : Feed) (s : State) : (setFeedCtx f c s).reporter = s.reporter := rfl
@[simp] theorem setFeedCtx_bench (f : Fin 4) (c : Feed) (s : State) : (setFeedCtx f c s).bench = s.bench := rfl
@[simp] theorem setFeedCtx_pins (f : Fin 4) (c : Feed) (s : State) : (setFeedCtx f c s).pins = s.pins := rfl
@[simp] theorem setFeedCtx_now (f : Fin 4) (c : Feed) (s : State) : (setFeedCtx f c s).now = s.now := rfl
@[simp] theorem setFeedCtx_events (f : Fin 4) (c : Feed) (s : State) : (setFeedCtx f c s).events = s.events := rfl
@[simp] theorem setFeedCtx_pending (f : Fin 4) (c : Feed) (s : State) : (setFeedCtx f c s).pending = s.pending := rfl

/-! ### setGate -/

@[simp] theorem setGate_ksu (b : Bool) (s : State) : (setGate b s).ksu = s.ksu := rfl
@[simp] theorem setGate_chords (b : Bool) (s : State) : (setGate b s).chords = s.chords := rfl
@[simp] theorem setGate_session (b : Bool) (s : State) : (setGate b s).session = s.session := rfl
@[simp] theorem setGate_journal (b : Bool) (s : State) : (setGate b s).journal = s.journal := rfl
@[simp] theorem setGate_memory (b : Bool) (s : State) : (setGate b s).memory = s.memory := rfl
@[simp] theorem setGate_dict (b : Bool) (s : State) : (setGate b s).dict = s.dict := rfl
@[simp] theorem setGate_trans (b : Bool) (s : State) : (setGate b s).trans = s.trans := rfl
@[simp] theorem setGate_lines (b : Bool) (s : State) : (setGate b s).lines = s.lines := rfl
@[simp] theorem setGate_cls (b : Bool) (s : State) : (setGate b s).cls = s.cls := rfl
@[simp] theorem setGate_feeds (b : Bool) (s : State) : (setGate b s).feeds = { s.feeds with gate := b } := rfl
@[simp] theorem setGate_marks (b : Bool) (s : State) : (setGate b s).marks = s.marks := rfl
@[simp] theorem setGate_reporter (b : Bool) (s : State) : (setGate b s).reporter = s.reporter := rfl
@[simp] theorem setGate_bench (b : Bool) (s : State) : (setGate b s).bench = s.bench := rfl
@[simp] theorem setGate_pins (b : Bool) (s : State) : (setGate b s).pins = s.pins := rfl
@[simp] theorem setGate_now (b : Bool) (s : State) : (setGate b s).now = s.now := rfl
@[simp] theorem setGate_events (b : Bool) (s : State) : (setGate b s).events = s.events := rfl
@[simp] theorem setGate_pending (b : Bool) (s : State) : (setGate b s).pending = s.pending := rfl

/-! ### setMarks -/

@[simp] theorem setMarks_ksu (ms : List Mark) (s : State) : (setMarks ms s).ksu = s.ksu := rfl
@[simp] theorem setMarks_chords (ms : List Mark) (s : State) : (setMarks ms s).chords = s.chords := rfl
@[simp] theorem setMarks_session (ms : List Mark) (s : State) : (setMarks ms s).session = s.session := rfl
@[simp] theorem setMarks_journal (ms : List Mark) (s : State) : (setMarks ms s).journal = s.journal := rfl
@[simp] theorem setMarks_memory (ms : List Mark) (s : State) : (setMarks ms s).memory = s.memory := rfl
@[simp] theorem setMarks_dict (ms : List Mark) (s : State) : (setMarks ms s).dict = s.dict := rfl
@[simp] theorem setMarks_trans (ms : List Mark) (s : State) : (setMarks ms s).trans = s.trans := rfl
@[simp] theorem setMarks_lines (ms : List Mark) (s : State) : (setMarks ms s).lines = s.lines := rfl
@[simp] theorem setMarks_cls (ms : List Mark) (s : State) : (setMarks ms s).cls = s.cls := rfl
@[simp] theorem setMarks_feeds (ms : List Mark) (s : State) : (setMarks ms s).feeds = s.feeds := rfl
@[simp] theorem setMarks_marks (ms : List Mark) (s : State) : (setMarks ms s).marks = { s.marks with records := ms } := rfl
@[simp] theorem setMarks_reporter (ms : List Mark) (s : State) : (setMarks ms s).reporter = s.reporter := rfl
@[simp] theorem setMarks_bench (ms : List Mark) (s : State) : (setMarks ms s).bench = s.bench := rfl
@[simp] theorem setMarks_pins (ms : List Mark) (s : State) : (setMarks ms s).pins = s.pins := rfl
@[simp] theorem setMarks_now (ms : List Mark) (s : State) : (setMarks ms s).now = s.now := rfl
@[simp] theorem setMarks_events (ms : List Mark) (s : State) : (setMarks ms s).events = s.events := rfl
@[simp] theorem setMarks_pending (ms : List Mark) (s : State) : (setMarks ms s).pending = s.pending := rfl

/-! ### setKey -/

@[simp] theorem setKey_ksu (i : Nat) (k : Key) (s : State) : (setKey i k s).ksu = { s.ksu with keys := s.ksu.keys.set i k } := rfl
@[simp] theorem setKey_chords (i : Nat) (k : Key) (s : State) : (setKey i k s).chords = s.chords := rfl
@[simp] theorem setKey_session (i : Nat) (k : Key) (s : State) : (setKey i k s).session = s.session := rfl
@[simp] theorem setKey_journal (i : Nat) (k : Key) (s : State) : (setKey i k s).journal = s.journal := rfl
@[simp] theorem setKey_memory (i : Nat) (k : Key) (s : State) : (setKey i k s).memory = s.memory := rfl
@[simp] theorem setKey_dict (i : Nat) (k : Key) (s : State) : (setKey i k s).dict = s.dict := rfl
@[simp] theorem setKey_trans (i : Nat) (k : Key) (s : State) : (setKey i k s).trans = s.trans := rfl
@[simp] theorem setKey_lines (i : Nat) (k : Key) (s : State) : (setKey i k s).lines = s.lines := rfl
@[simp] theorem setKey_cls (i : Nat) (k : Key) (s : State) : (setKey i k s).cls = s.cls := rfl
@[simp] theorem setKey_feeds (i : Nat) (k : Key) (s : State) : (setKey i k s).feeds = s.feeds := rfl
@[simp] theorem setKey_marks (i : Nat) (k : Key) (s : State) : (setKey i k s).marks = s.marks := rfl
@[simp] theorem setKey_reporter (i : Nat) (k : Key) (s : State) : (setKey i k s).reporter = s.reporter := rfl
@[simp] theorem setKey_bench (i : Nat) (k : Key) (s : State) : (setKey i k s).bench = s.bench := rfl
@[simp] theorem setKey_pins (i : Nat) (k : Key) (s : State) : (setKey i k s).pins = s.pins := rfl
@[simp] theorem setKey_now (i : Nat) (k : Key) (s : State) : (setKey i k s).now = s.now := rfl
@[simp] theorem setKey_events (i : Nat) (k : Key) (s : State) : (setKey i k s).events = s.events := rfl
@[simp] theorem setKey_pending (i : Nat) (k : Key) (s : State) : (setKey i k s).pending = s.pending := rfl

/-! ### mapKeys -/

@[simp] theorem mapKeys_ksu (g : Nat → Key → Key) (s : State) : (mapKeys g s).ksu = { s.ksu with keys := s.ksu.keys.mapIdx g } := rfl
@[simp] theorem mapKeys_chords (g : Nat → Key → Key) (s : State) : (mapKeys g s).chords = s.chords := rfl
@[simp] theorem mapKeys_session (g : Nat → Key → Key) (s : State) : (mapKeys g s).session = s.session := rfl
@[simp] theorem mapKeys_journal (g : Nat → Key → Key) (s : State) : (mapKeys g s).journal = s.journal := rfl
@[simp] theorem mapKeys_memory (g : Nat → Key → Key) (s : State) : (mapKeys g s).memory = s.memory := rfl
@[simp] theorem mapKeys_dict (g : Nat → Key → Key) (s : State) : (mapKeys g s).dict = s.dict := rfl
@[simp] theorem mapKeys_trans (g : Nat → Key → Key) (s : State) : (mapKeys g s).trans = s.trans := rfl
@[simp] theorem mapKeys_lines (g : Nat → Key → Key) (s : State) : (mapKeys g s).lines = s.lines := rfl
@[simp] theorem mapKeys_cls (g : Nat → Key → Key) (s : State) : (mapKeys g s).cls = s.cls := rfl
@[simp] theorem mapKeys_feeds (g : Nat → Key → Key) (s : State) : (mapKeys g s).feeds = s.feeds := rfl
@[simp] theorem mapKeys_marks (g : Nat → Key → Key) (s : State) : (mapKeys g s).marks = s.marks := rfl
@[simp] theorem mapKeys_reporter (g : Nat → Key → Key) (s : State) : (mapKeys g s).reporter = s.reporter := rfl
@[simp] theorem mapKeys_bench (g : Nat → Key → Key) (s : State) : (mapKeys g s).bench = s.bench := rfl
@[simp] theorem mapKeys_pins (g : Nat → Key → Key) (s : State) : (mapKeys g s).pins = s.pins := rfl
@[simp] theorem mapKeys_now (g : Nat → Key → Key) (s : State) : (mapKeys g s).now = s.now := rfl
@[simp] theorem mapKeys_events (g : Nat → Key → Key) (s : State) : (mapKeys g s).events = s.events := rfl
@[simp] theorem mapKeys_pending (g : Nat → Key → Key) (s : State) : (mapKeys g s).pending = s.pending := rfl

/-! ### setChord -/

@[simp] theorem setChord_ksu (c : Option Chord) (s : State) : (setChord c s).ksu = s.ksu := rfl
@[simp] theorem setChord_chords (c : Option Chord) (s : State) : (setChord c s).chords = { s.chords with chord := c } := rfl
@[simp] theorem setChord_session (c : Option Chord) (s : State) : (setChord c s).session = s.session := rfl
@[simp] theorem setChord_journal (c : Option Chord) (s : State) : (setChord c s).journal = s.journal := rfl
@[simp] theorem setChord_memory (c : Option Chord) (s : State) : (setChord c s).memory = s.memory := rfl
@[simp] theorem setChord_dict (c : Option Chord) (s : State) : (setChord c s).dict = s.dict := rfl
@[simp] theorem setChord_trans (c : Option Chord) (s : State) : (setChord c s).trans = s.trans := rfl
@[simp] theorem setChord_lines (c : Option Chord) (s : State) : (setChord c s).lines = s.lines := rfl
@[simp] theorem setChord_cls (c : Option Chord) (s : State) : (setChord c s).cls = s.cls := rfl
@[simp] theorem setChord_feeds (c : Option Chord) (s : State) : (setChord c s).feeds = s.feeds := rfl
@[simp] theorem setChord_marks (c : Option Chord) (s : State) : (setChord c s).marks = s.marks := rfl
@[simp] theorem setChord_reporter (c : Option Chord) (s : State) : (setChord c s).reporter = s.reporter := rfl
@[simp] theorem setChord_bench (c : Option Chord) (s : State) : (setChord c s).bench = s.bench := rfl
@[simp] theorem setChord_pins (c : Option Chord) (s : State) : (setChord c s).pins = s.pins := rfl
@[simp] theorem setChord_now (c : Option Chord) (s : State) : (setChord c s).now = s.now := rfl
@[simp] theorem setChord_events (c : Option Chord) (s : State) : (setChord c s).events = s.events := rfl
@[simp] theorem setChord_pending (c : Option Chord) (s : State) : (setChord c s).pending = s.pending := rfl

/-! ### setStrokes -/

@[simp] theorem setStrokes_ksu (n : Nat) (s : State) : (setStrokes n s).ksu = s.ksu := rfl
@[simp] theorem setStrokes_chords (n : Nat) (s : State) : (setStrokes n s).chords = { s.chords with strokes := n } := rfl
@[simp] theorem setStrokes_session (n : Nat) (s : State) : (setStrokes n s).session = s.session := rfl
@[simp] theorem setStrokes_journal (n : Nat) (s : State) : (setStrokes n s).journal = s.journal := rfl
@[simp] theorem setStrokes_memory (n : Nat) (s : State) : (setStrokes n s).memory = s.memory := rfl
@[simp] theorem setStrokes_dict (n : Nat) (s : State) : (setStrokes n s).dict = s.dict := rfl
@[simp] theorem setStrokes_trans (n : Nat) (s : State) : (setStrokes n s).trans = s.trans := rfl
@[simp] theorem setStrokes_lines (n : Nat) (s : State) : (setStrokes n s).lines = s.lines := rfl
@[simp] theorem setStrokes_cls (n : Nat) (s : State) : (setStrokes n s).cls = s.cls := rfl
@[simp] theorem setStrokes_feeds (n : Nat) (s : State) : (setStrokes n s).feeds = s.feeds := rfl
@[simp] theorem setStrokes_marks (n : Nat) (s : State) : (setStrokes n s).marks = s.marks := rfl
@[simp] theorem setStrokes_reporter (n : Nat) (s : State) : (setStrokes n s).reporter = s.reporter := rfl
@[simp] theorem setStrokes_bench (n : Nat) (s : State) : (setStrokes n s).bench = s.bench := rfl
@[simp] theorem setStrokes_pins (n : Nat) (s : State) : (setStrokes n s).pins = s.pins := rfl
@[simp] theorem setStrokes_now (n : Nat) (s : State) : (setStrokes n s).now = s.now := rfl
@[simp] theorem setStrokes_events (n : Nat) (s : State) : (setStrokes n s).events = s.events := rfl
@[simp] theorem setStrokes_pending (n : Nat) (s : State) : (setStrokes n s).pending = s.pending := rfl

/-! ### handOver -/

@[simp] theorem handOver_ksu (k : Stroke) (s : State) : (handOver k s).ksu = s.ksu := rfl
@[simp] theorem handOver_chords (k : Stroke) (s : State) : (handOver k s).chords = s.chords := rfl
@[simp] theorem handOver_session (k : Stroke) (s : State) : (handOver k s).session = s.session := rfl
@[simp] theorem handOver_journal (k : Stroke) (s : State) : (handOver k s).journal = s.journal := rfl
@[simp] theorem handOver_memory (k : Stroke) (s : State) : (handOver k s).memory = s.memory := rfl
@[simp] theorem handOver_dict (k : Stroke) (s : State) : (handOver k s).dict = s.dict := rfl
@[simp] theorem handOver_trans (k : Stroke) (s : State) : (handOver k s).trans = { s.trans with handed := s.trans.handed ++ [k] } := rfl
@[simp] theorem handOver_lines (k : Stroke) (s : State) : (handOver k s).lines = s.lines := rfl
@[simp] theorem handOver_cls (k : Stroke) (s : State) : (handOver k s).cls = s.cls := rfl
@[simp] theorem handOver_feeds (k : Stroke) (s : State) : (handOver k s).feeds = s.feeds := rfl
@[simp] theorem handOver_marks (k : Stroke) (s : State) : (handOver k s).marks = s.marks := rfl
@[simp] theorem handOver_reporter (k : Stroke) (s : State) : (handOver k s).reporter = s.reporter := rfl
@[simp] theorem handOver_bench (k : Stroke) (s : State) : (handOver k s).bench = s.bench := rfl
@[simp] theorem handOver_pins (k : Stroke) (s : State) : (handOver k s).pins = s.pins := rfl
@[simp] theorem handOver_now (k : Stroke) (s : State) : (handOver k s).now = s.now := rfl
@[simp] theorem handOver_events (k : Stroke) (s : State) : (handOver k s).events = s.events := rfl
@[simp] theorem handOver_pending (k : Stroke) (s : State) : (handOver k s).pending = s.pending := rfl

/-! ### notifyTiers -/

@[simp] theorem notifyTiers_ksu  (s : State) : (notifyTiers  s).ksu = s.ksu := rfl
@[simp] theorem notifyTiers_chords  (s : State) : (notifyTiers  s).chords = s.chords := rfl
@[simp] theorem notifyTiers_session  (s : State) : (notifyTiers  s).session = s.session := rfl
@[simp] theorem notifyTiers_journal  (s : State) : (notifyTiers  s).journal = s.journal := rfl
@[simp] theorem notifyTiers_memory  (s : State) : (notifyTiers  s).memory = s.memory := rfl
@[simp] theorem notifyTiers_dict  (s : State) : (notifyTiers  s).dict = s.dict := rfl
@[simp] theorem notifyTiers_trans  (s : State) : (notifyTiers  s).trans = { s.trans with notices := s.trans.notices + 1 } := rfl
@[simp] theorem notifyTiers_lines  (s : State) : (notifyTiers  s).lines = s.lines := rfl
@[simp] theorem notifyTiers_cls  (s : State) : (notifyTiers  s).cls = s.cls := rfl
@[simp] theorem notifyTiers_feeds  (s : State) : (notifyTiers  s).feeds = s.feeds := rfl
@[simp] theorem notifyTiers_marks  (s : State) : (notifyTiers  s).marks = s.marks := rfl
@[simp] theorem notifyTiers_reporter  (s : State) : (notifyTiers  s).reporter = s.reporter := rfl
@[simp] theorem notifyTiers_bench  (s : State) : (notifyTiers  s).bench = s.bench := rfl
@[simp] theorem notifyTiers_pins  (s : State) : (notifyTiers  s).pins = s.pins := rfl
@[simp] theorem notifyTiers_now  (s : State) : (notifyTiers  s).now = s.now := rfl
@[simp] theorem notifyTiers_events  (s : State) : (notifyTiers  s).events = s.events := rfl
@[simp] theorem notifyTiers_pending  (s : State) : (notifyTiers  s).pending = s.pending := rfl

/-! ### setEffective -/

@[simp] theorem setEffective_ksu (c : Cls) (s : State) : (setEffective c s).ksu = s.ksu := rfl
@[simp] theorem setEffective_chords (c : Cls) (s : State) : (setEffective c s).chords = s.chords := rfl
@[simp] theorem setEffective_session (c : Cls) (s : State) : (setEffective c s).session = s.session := rfl
@[simp] theorem setEffective_journal (c : Cls) (s : State) : (setEffective c s).journal = s.journal := rfl
@[simp] theorem setEffective_memory (c : Cls) (s : State) : (setEffective c s).memory = s.memory := rfl
@[simp] theorem setEffective_dict (c : Cls) (s : State) : (setEffective c s).dict = s.dict := rfl
@[simp] theorem setEffective_trans (c : Cls) (s : State) : (setEffective c s).trans = s.trans := rfl
@[simp] theorem setEffective_lines (c : Cls) (s : State) : (setEffective c s).lines = s.lines := rfl
@[simp] theorem setEffective_cls (c : Cls) (s : State) : (setEffective c s).cls = { s.cls with effective := c } := rfl
@[simp] theorem setEffective_feeds (c : Cls) (s : State) : (setEffective c s).feeds = s.feeds := rfl
@[simp] theorem setEffective_marks (c : Cls) (s : State) : (setEffective c s).marks = s.marks := rfl
@[simp] theorem setEffective_reporter (c : Cls) (s : State) : (setEffective c s).reporter = s.reporter := rfl
@[simp] theorem setEffective_bench (c : Cls) (s : State) : (setEffective c s).bench = s.bench := rfl
@[simp] theorem setEffective_pins (c : Cls) (s : State) : (setEffective c s).pins = s.pins := rfl
@[simp] theorem setEffective_now (c : Cls) (s : State) : (setEffective c s).now = s.now := rfl
@[simp] theorem setEffective_events (c : Cls) (s : State) : (setEffective c s).events = s.events := rfl
@[simp] theorem setEffective_pending (c : Cls) (s : State) : (setEffective c s).pending = s.pending := rfl

/-! ### setSession -/

@[simp] theorem setSession_ksu (st : SessState) (s : State) : (setSession st s).ksu = s.ksu := rfl
@[simp] theorem setSession_chords (st : SessState) (s : State) : (setSession st s).chords = s.chords := rfl
@[simp] theorem setSession_session (st : SessState) (s : State) : (setSession st s).session = { s.session with st := st } := rfl
@[simp] theorem setSession_journal (st : SessState) (s : State) : (setSession st s).journal = s.journal := rfl
@[simp] theorem setSession_memory (st : SessState) (s : State) : (setSession st s).memory = s.memory := rfl
@[simp] theorem setSession_dict (st : SessState) (s : State) : (setSession st s).dict = s.dict := rfl
@[simp] theorem setSession_trans (st : SessState) (s : State) : (setSession st s).trans = s.trans := rfl
@[simp] theorem setSession_lines (st : SessState) (s : State) : (setSession st s).lines = s.lines := rfl
@[simp] theorem setSession_cls (st : SessState) (s : State) : (setSession st s).cls = s.cls := rfl
@[simp] theorem setSession_feeds (st : SessState) (s : State) : (setSession st s).feeds = s.feeds := rfl
@[simp] theorem setSession_marks (st : SessState) (s : State) : (setSession st s).marks = s.marks := rfl
@[simp] theorem setSession_reporter (st : SessState) (s : State) : (setSession st s).reporter = s.reporter := rfl
@[simp] theorem setSession_bench (st : SessState) (s : State) : (setSession st s).bench = s.bench := rfl
@[simp] theorem setSession_pins (st : SessState) (s : State) : (setSession st s).pins = s.pins := rfl
@[simp] theorem setSession_now (st : SessState) (s : State) : (setSession st s).now = s.now := rfl
@[simp] theorem setSession_events (st : SessState) (s : State) : (setSession st s).events = s.events := rfl
@[simp] theorem setSession_pending (st : SessState) (s : State) : (setSession st s).pending = s.pending := rfl

/-! ### setRdy -/

@[simp] theorem setRdy_ksu (f : Fin 4) (b : Bool) (s : State) : (setRdy f b s).ksu = s.ksu := rfl
@[simp] theorem setRdy_chords (f : Fin 4) (b : Bool) (s : State) : (setRdy f b s).chords = s.chords := rfl
@[simp] theorem setRdy_session (f : Fin 4) (b : Bool) (s : State) : (setRdy f b s).session = s.session := rfl
@[simp] theorem setRdy_journal (f : Fin 4) (b : Bool) (s : State) : (setRdy f b s).journal = s.journal := rfl
@[simp] theorem setRdy_memory (f : Fin 4) (b : Bool) (s : State) : (setRdy f b s).memory = s.memory := rfl
@[simp] theorem setRdy_dict (f : Fin 4) (b : Bool) (s : State) : (setRdy f b s).dict = s.dict := rfl
@[simp] theorem setRdy_trans (f : Fin 4) (b : Bool) (s : State) : (setRdy f b s).trans = s.trans := rfl
@[simp] theorem setRdy_lines (f : Fin 4) (b : Bool) (s : State) : (setRdy f b s).lines = s.lines := rfl
@[simp] theorem setRdy_cls (f : Fin 4) (b : Bool) (s : State) : (setRdy f b s).cls = s.cls := rfl
@[simp] theorem setRdy_feeds (f : Fin 4) (b : Bool) (s : State) : (setRdy f b s).feeds = s.feeds := rfl
@[simp] theorem setRdy_marks (f : Fin 4) (b : Bool) (s : State) : (setRdy f b s).marks = s.marks := rfl
@[simp] theorem setRdy_reporter (f : Fin 4) (b : Bool) (s : State) : (setRdy f b s).reporter = s.reporter := rfl
@[simp] theorem setRdy_bench (f : Fin 4) (b : Bool) (s : State) : (setRdy f b s).bench = s.bench := rfl
@[simp] theorem setRdy_pins (f : Fin 4) (b : Bool) (s : State) : (setRdy f b s).pins = { s.pins with rdy := s.pins.rdy.set f b } := rfl
@[simp] theorem setRdy_now (f : Fin 4) (b : Bool) (s : State) : (setRdy f b s).now = s.now := rfl
@[simp] theorem setRdy_events (f : Fin 4) (b : Bool) (s : State) : (setRdy f b s).events = s.events := rfl
@[simp] theorem setRdy_pending (f : Fin 4) (b : Bool) (s : State) : (setRdy f b s).pending = s.pending := rfl

/-! ### setHeld -/

@[simp] theorem setHeld_ksu (b : Bool) (s : State) : (setHeld b s).ksu = s.ksu := rfl
@[simp] theorem setHeld_chords (b : Bool) (s : State) : (setHeld b s).chords = s.chords := rfl
@[simp] theorem setHeld_session (b : Bool) (s : State) : (setHeld b s).session = s.session := rfl
@[simp] theorem setHeld_journal (b : Bool) (s : State) : (setHeld b s).journal = s.journal := rfl
@[simp] theorem setHeld_memory (b : Bool) (s : State) : (setHeld b s).memory = s.memory := rfl
@[simp] theorem setHeld_dict (b : Bool) (s : State) : (setHeld b s).dict = s.dict := rfl
@[simp] theorem setHeld_trans (b : Bool) (s : State) : (setHeld b s).trans = s.trans := rfl
@[simp] theorem setHeld_lines (b : Bool) (s : State) : (setHeld b s).lines = s.lines := rfl
@[simp] theorem setHeld_cls (b : Bool) (s : State) : (setHeld b s).cls = s.cls := rfl
@[simp] theorem setHeld_feeds (b : Bool) (s : State) : (setHeld b s).feeds = s.feeds := rfl
@[simp] theorem setHeld_marks (b : Bool) (s : State) : (setHeld b s).marks = s.marks := rfl
@[simp] theorem setHeld_reporter (b : Bool) (s : State) : (setHeld b s).reporter = s.reporter := rfl
@[simp] theorem setHeld_bench (b : Bool) (s : State) : (setHeld b s).bench = s.bench := rfl
@[simp] theorem setHeld_pins (b : Bool) (s : State) : (setHeld b s).pins = { s.pins with rstnHeld := b } := rfl
@[simp] theorem setHeld_now (b : Bool) (s : State) : (setHeld b s).now = s.now := rfl
@[simp] theorem setHeld_events (b : Bool) (s : State) : (setHeld b s).events = s.events := rfl
@[simp] theorem setHeld_pending (b : Bool) (s : State) : (setHeld b s).pending = s.pending := rfl

/-! ### State.setLink -/

@[simp] theorem setLink_ksu (s : State) (l : Link) (k : LinkState) : (s.setLink l k).ksu = s.ksu := by cases l <;> rfl
@[simp] theorem setLink_chords (s : State) (l : Link) (k : LinkState) : (s.setLink l k).chords = s.chords := by cases l <;> rfl
@[simp] theorem setLink_session (s : State) (l : Link) (k : LinkState) : (s.setLink l k).session = s.session := by cases l <;> rfl
@[simp] theorem setLink_journal (s : State) (l : Link) (k : LinkState) : (s.setLink l k).journal = s.journal := by cases l <;> rfl
@[simp] theorem setLink_memory (s : State) (l : Link) (k : LinkState) : (s.setLink l k).memory = s.memory := by cases l <;> rfl
@[simp] theorem setLink_dict (s : State) (l : Link) (k : LinkState) : (s.setLink l k).dict = s.dict := by cases l <;> rfl
@[simp] theorem setLink_trans (s : State) (l : Link) (k : LinkState) : (s.setLink l k).trans = s.trans := by cases l <;> rfl
@[simp] theorem setLink_lines (s : State) (l : Link) (k : LinkState) : (s.setLink l k).lines = s.lines := by cases l <;> rfl
@[simp] theorem setLink_cls (s : State) (l : Link) (k : LinkState) : (s.setLink l k).cls = s.cls := by cases l <;> rfl
@[simp] theorem setLink_feeds (s : State) (l : Link) (k : LinkState) : (s.setLink l k).feeds = s.feeds := by cases l <;> rfl
@[simp] theorem setLink_marks (s : State) (l : Link) (k : LinkState) : (s.setLink l k).marks = s.marks := by cases l <;> rfl
@[simp] theorem setLink_pins (s : State) (l : Link) (k : LinkState) : (s.setLink l k).pins = s.pins := by cases l <;> rfl
@[simp] theorem setLink_now (s : State) (l : Link) (k : LinkState) : (s.setLink l k).now = s.now := by cases l <;> rfl
@[simp] theorem setLink_events (s : State) (l : Link) (k : LinkState) : (s.setLink l k).events = s.events := by cases l <;> rfl
@[simp] theorem setLink_pending (s : State) (l : Link) (k : LinkState) : (s.setLink l k).pending = s.pending := by cases l <;> rfl

@[simp] theorem setLink_link (s : State) (l : Link) (k : LinkState) : (s.setLink l k).link l = k := by cases l <;> rfl
@[simp] theorem setLink_other (s : State) (l : Link) (k : LinkState) : (s.setLink l k).link (otherLink l) = s.link (otherLink l) := by
  cases l <;> rfl
@[simp] theorem setLink_setLink (s : State) (l : Link) (j k : LinkState) : (s.setLink l j).setLink l k = s.setLink l k := by cases l <;> rfl
@[simp] theorem setLink_reporter_reporter (s : State) (k : LinkState) : (s.setLink .reporter k).reporter = k := rfl
@[simp] theorem setLink_reporter_bench (s : State) (k : LinkState) : (s.setLink .reporter k).bench = s.bench := rfl
@[simp] theorem setLink_bench_bench (s : State) (k : LinkState) : (s.setLink .bench k).bench = k := rfl
@[simp] theorem setLink_bench_reporter (s : State) (k : LinkState) : (s.setLink .bench k).reporter = s.reporter := rfl
@[simp] theorem link_reporter (s : State) : s.link .reporter = s.reporter := rfl
@[simp] theorem link_bench (s : State) : s.link .bench = s.bench := rfl
@[simp] theorem otherLink_reporter : otherLink .reporter = .bench := rfl
@[simp] theorem otherLink_bench : otherLink .bench = .reporter := rfl

/-! ### Quad -/

@[simp] theorem quad_get_set_self {α : Type} (q : Quad α) (i : Fin 4) (a : α) : (q.set i a).get i = a := by
  match i with
  | 0 => rfl
  | 1 => rfl
  | 2 => rfl
  | 3 => rfl

theorem quad_get_set_ne {α : Type} (q : Quad α) (i j : Fin 4) (a : α) (h : i ≠ j) : (q.set i a).get j = q.get j := by
  match i, j with
  | 0, 0 => exact absurd rfl h
  | 0, 1 => rfl
  | 0, 2 => rfl
  | 0, 3 => rfl
  | 1, 0 => rfl
  | 1, 1 => exact absurd rfl h
  | 1, 2 => rfl
  | 1, 3 => rfl
  | 2, 0 => rfl
  | 2, 1 => rfl
  | 2, 2 => exact absurd rfl h
  | 2, 3 => rfl
  | 3, 0 => rfl
  | 3, 1 => rfl
  | 3, 2 => rfl
  | 3, 3 => exact absurd rfl h

/-- A member read after a write: the value written, or what stood there. -/
theorem quad_get_set {α : Type} (q : Quad α) (i j : Fin 4) (a : α) : (q.set i a).get j = if i = j then a else q.get j := by
  by_cases h : i = j
  · subst h; simp
  · simp [quad_get_set_ne q i j a h, h]

@[simp] theorem quad_get_const {α : Type} (a : α) (i : Fin 4) : (Quad.const a).get i = a := by
  match i with
  | 0 => rfl
  | 1 => rfl
  | 2 => rfl
  | 3 => rfl

@[simp] theorem quad_get_map {α β : Type} (g : α → β) (q : Quad α) (i : Fin 4) : (q.map g).get i = g (q.get i) := by
  match i with
  | 0 => rfl
  | 1 => rfl
  | 2 => rfl
  | 3 => rfl

/-! ### Feeds -/

@[simp] theorem feed_setFeedCtx_self (f : Fin 4) (c : Feed) (s : State) : feed (setFeedCtx f c s) f = c := by simp [feed]

/-- A feed's context read after another, or the same, was replaced. -/
theorem feed_setFeedCtx (f g : Fin 4) (c : Feed) (s : State) : feed (setFeedCtx f c s) g = if f = g then c else feed s g := by
  simp [feed, quad_get_set]

end Sys2Proof.Machine
end

