-- ==== Sys2Proof/Laws/Frames.lean ====
section
/-! SUPPORT. For each shared operation, what it leaves alone: one lemma per part of the state. What an operation does change is told by its
own lemmas in the other files of this folder. -/

namespace Sys2Proof.Machine

/-- What `post` leaves alone. -/
@[simp] theorem post_keeps (l : Link) (n : Notice) (s : State) :
    (post l n s).ksu = s.ksu ∧ (post l n s).chords = s.chords ∧ (post l n s).session = s.session ∧ (post l n s).journal = s.journal ∧
    (post l n s).memory = s.memory ∧ (post l n s).dict = s.dict ∧ (post l n s).trans = s.trans ∧ (post l n s).lines = s.lines ∧
    (post l n s).cls = s.cls ∧ (post l n s).feeds = s.feeds ∧ (post l n s).marks = s.marks ∧ (post l n s).pins = s.pins ∧
    (post l n s).now = s.now ∧ (post l n s).events = s.events ∧ (post l n s).pending = s.pending := by simp [post]

/-- What `postBoth` leaves alone. -/
@[simp] theorem postBoth_keeps (n : Notice) (s : State) :
    (postBoth n s).ksu = s.ksu ∧ (postBoth n s).chords = s.chords ∧ (postBoth n s).session = s.session ∧
    (postBoth n s).journal = s.journal ∧ (postBoth n s).memory = s.memory ∧ (postBoth n s).dict = s.dict ∧
    (postBoth n s).trans = s.trans ∧ (postBoth n s).lines = s.lines ∧ (postBoth n s).cls = s.cls ∧ (postBoth n s).feeds = s.feeds ∧
    (postBoth n s).marks = s.marks ∧ (postBoth n s).pins = s.pins ∧ (postBoth n s).now = s.now ∧ (postBoth n s).events = s.events ∧
    (postBoth n s).pending = s.pending := by simp [postBoth]

/-- What `respond` leaves alone. -/
@[simp] theorem respond_keeps (l : Link) (r : Response) (s : State) :
    (respond l r s).ksu = s.ksu ∧ (respond l r s).chords = s.chords ∧ (respond l r s).session = s.session ∧
    (respond l r s).journal = s.journal ∧ (respond l r s).memory = s.memory ∧ (respond l r s).dict = s.dict ∧
    (respond l r s).trans = s.trans ∧ (respond l r s).lines = s.lines ∧ (respond l r s).cls = s.cls ∧ (respond l r s).feeds = s.feeds ∧
    (respond l r s).marks = s.marks ∧ (respond l r s).pins = s.pins ∧ (respond l r s).now = s.now ∧ (respond l r s).events = s.events ∧
    (respond l r s).pending = s.pending := by simp [respond]

/-- What `finish` leaves alone. -/
@[simp] theorem finish_keeps (l : Link) (st : Status) (p : List Byte) (s : State) :
    (finish l st p s).ksu = s.ksu ∧ (finish l st p s).chords = s.chords ∧ (finish l st p s).session = s.session ∧
    (finish l st p s).journal = s.journal ∧ (finish l st p s).memory = s.memory ∧ (finish l st p s).dict = s.dict ∧
    (finish l st p s).trans = s.trans ∧ (finish l st p s).lines = s.lines ∧ (finish l st p s).cls = s.cls ∧
    (finish l st p s).feeds = s.feeds ∧ (finish l st p s).marks = s.marks ∧ (finish l st p s).pins = s.pins ∧
    (finish l st p s).now = s.now ∧ (finish l st p s).events = s.events ∧ (finish l st p s).pending = s.pending := by
  unfold finish
  try dsimp only
  repeat' split
  all_goals simp

/-- What `writeOver` leaves alone. -/
@[simp] theorem writeOver_keeps (l : Link) (s : State) :
    (writeOver l s).ksu = s.ksu ∧ (writeOver l s).chords = s.chords ∧ (writeOver l s).session = s.session ∧
    (writeOver l s).journal = s.journal ∧ (writeOver l s).memory = s.memory ∧ (writeOver l s).dict = s.dict ∧
    (writeOver l s).trans = s.trans ∧ (writeOver l s).lines = s.lines ∧ (writeOver l s).cls = s.cls ∧ (writeOver l s).feeds = s.feeds ∧
    (writeOver l s).marks = s.marks ∧ (writeOver l s).pins = s.pins ∧ (writeOver l s).now = s.now ∧ (writeOver l s).events = s.events ∧
    (writeOver l s).pending = s.pending := by simp [writeOver]

/-- What `touchPresence` leaves alone. -/
@[simp] theorem touchPresence_keeps (l : Link) (s : State) :
    (touchPresence l s).ksu = s.ksu ∧ (touchPresence l s).chords = s.chords ∧ (touchPresence l s).session = s.session ∧
    (touchPresence l s).journal = s.journal ∧ (touchPresence l s).memory = s.memory ∧ (touchPresence l s).dict = s.dict ∧
    (touchPresence l s).trans = s.trans ∧ (touchPresence l s).lines = s.lines ∧ (touchPresence l s).cls = s.cls ∧
    (touchPresence l s).feeds = s.feeds ∧ (touchPresence l s).marks = s.marks ∧ (touchPresence l s).pins = s.pins ∧
    (touchPresence l s).now = s.now ∧ (touchPresence l s).events = s.events ∧ (touchPresence l s).pending = s.pending := by
  unfold touchPresence
  try dsimp only
  repeat' split
  all_goals simp

/-- What `discardFrame` leaves alone. -/
@[simp] theorem discardFrame_keeps (l : Link) (s : State) :
    (discardFrame l s).ksu = s.ksu ∧ (discardFrame l s).chords = s.chords ∧ (discardFrame l s).session = s.session ∧
    (discardFrame l s).journal = s.journal ∧ (discardFrame l s).memory = s.memory ∧ (discardFrame l s).dict = s.dict ∧
    (discardFrame l s).trans = s.trans ∧ (discardFrame l s).lines = s.lines ∧ (discardFrame l s).cls = s.cls ∧
    (discardFrame l s).feeds = s.feeds ∧ (discardFrame l s).marks = s.marks ∧ (discardFrame l s).pins = s.pins ∧
    (discardFrame l s).now = s.now ∧ (discardFrame l s).events = s.events ∧ (discardFrame l s).pending = s.pending := by simp [discardFrame]

/-- What `latchHealth` leaves alone. -/
@[simp] theorem latchHealth_keeps (l : Link) (f : Fin 4) (h : Health) (s : State) :
    (latchHealth l f h s).ksu = s.ksu ∧ (latchHealth l f h s).chords = s.chords ∧ (latchHealth l f h s).session = s.session ∧
    (latchHealth l f h s).journal = s.journal ∧ (latchHealth l f h s).memory = s.memory ∧ (latchHealth l f h s).dict = s.dict ∧
    (latchHealth l f h s).trans = s.trans ∧ (latchHealth l f h s).lines = s.lines ∧ (latchHealth l f h s).cls = s.cls ∧
    (latchHealth l f h s).feeds = s.feeds ∧ (latchHealth l f h s).marks = s.marks ∧ (latchHealth l f h s).pins = s.pins ∧
    (latchHealth l f h s).now = s.now ∧ (latchHealth l f h s).events = s.events ∧ (latchHealth l f h s).pending = s.pending := by simp [latchHealth]

/-- What `sent` leaves alone. -/
@[simp] theorem sent_keeps (l : Link) (bs : List Byte) (s : State) :
    (sent l bs s).ksu = s.ksu ∧ (sent l bs s).chords = s.chords ∧ (sent l bs s).session = s.session ∧ (sent l bs s).journal = s.journal ∧
    (sent l bs s).memory = s.memory ∧ (sent l bs s).dict = s.dict ∧ (sent l bs s).trans = s.trans ∧ (sent l bs s).lines = s.lines ∧
    (sent l bs s).cls = s.cls ∧ (sent l bs s).feeds = s.feeds ∧ (sent l bs s).marks = s.marks ∧ (sent l bs s).pins = s.pins ∧
    (sent l bs s).now = s.now ∧ (sent l bs s).events = s.events ∧ (sent l bs s).pending = s.pending := by simp [sent]

/-- What `readWhole` leaves alone. -/
@[simp] theorem readWhole_keeps (l : Link) (bs : List Byte) (s : State) :
    (readWhole l bs s).ksu = s.ksu ∧ (readWhole l bs s).chords = s.chords ∧ (readWhole l bs s).session = s.session ∧
    (readWhole l bs s).journal = s.journal ∧ (readWhole l bs s).memory = s.memory ∧ (readWhole l bs s).dict = s.dict ∧
    (readWhole l bs s).trans = s.trans ∧ (readWhole l bs s).lines = s.lines ∧ (readWhole l bs s).cls = s.cls ∧
    (readWhole l bs s).feeds = s.feeds ∧ (readWhole l bs s).marks = s.marks ∧ (readWhole l bs s).pins = s.pins ∧
    (readWhole l bs s).now = s.now ∧ (readWhole l bs s).events = s.events ∧ (readWhole l bs s).pending = s.pending := by simp [readWhole]

/-- What `readLatch` leaves alone. -/
@[simp] theorem readLatch_keeps (l : Link) (s : State) :
    (readLatch l s).ksu = s.ksu ∧ (readLatch l s).chords = s.chords ∧ (readLatch l s).session = s.session ∧
    (readLatch l s).journal = s.journal ∧ (readLatch l s).memory = s.memory ∧ (readLatch l s).dict = s.dict ∧
    (readLatch l s).trans = s.trans ∧ (readLatch l s).lines = s.lines ∧ (readLatch l s).cls = s.cls ∧ (readLatch l s).feeds = s.feeds ∧
    (readLatch l s).marks = s.marks ∧ (readLatch l s).pins = s.pins ∧ (readLatch l s).now = s.now ∧ (readLatch l s).events = s.events ∧
    (readLatch l s).pending = s.pending := by simp [readLatch]

/-- What `toStandby` leaves alone. -/
@[simp] theorem toStandby_keeps (s : State) :
    (toStandby s).ksu = s.ksu ∧ (toStandby s).chords = s.chords ∧ (toStandby s).journal = s.journal ∧ (toStandby s).memory = s.memory ∧
    (toStandby s).dict = s.dict ∧ (toStandby s).trans = s.trans ∧ (toStandby s).lines = s.lines ∧ (toStandby s).cls = s.cls ∧
    (toStandby s).feeds = s.feeds ∧ (toStandby s).marks = s.marks ∧ (toStandby s).pins = s.pins ∧ (toStandby s).now = s.now ∧
    (toStandby s).events = s.events ∧ (toStandby s).pending = s.pending := by simp [toStandby]

/-- What `closingReport` leaves alone. -/
@[simp] theorem closingReport_keeps (s : State) :
    (closingReport s).ksu = s.ksu ∧ (closingReport s).chords = s.chords ∧ (closingReport s).journal = s.journal ∧
    (closingReport s).memory = s.memory ∧ (closingReport s).dict = s.dict ∧ (closingReport s).trans = s.trans ∧
    (closingReport s).lines = s.lines ∧ (closingReport s).cls = s.cls ∧ (closingReport s).feeds = s.feeds ∧
    (closingReport s).marks = s.marks ∧ (closingReport s).pins = s.pins ∧ (closingReport s).now = s.now ∧
    (closingReport s).events = s.events ∧ (closingReport s).pending = s.pending := by
  unfold closingReport
  try dsimp only
  repeat' split
  all_goals simp

/-- What `countMissed` leaves alone. -/
@[simp] theorem countMissed_keeps (e : Entry) (s : State) :
    (countMissed e s).ksu = s.ksu ∧ (countMissed e s).chords = s.chords ∧ (countMissed e s).session = s.session ∧
    (countMissed e s).memory = s.memory ∧ (countMissed e s).dict = s.dict ∧ (countMissed e s).trans = s.trans ∧
    (countMissed e s).lines = s.lines ∧ (countMissed e s).cls = s.cls ∧ (countMissed e s).feeds = s.feeds ∧
    (countMissed e s).marks = s.marks ∧ (countMissed e s).reporter = s.reporter ∧ (countMissed e s).bench = s.bench ∧
    (countMissed e s).pins = s.pins ∧ (countMissed e s).now = s.now ∧ (countMissed e s).events = s.events ∧
    (countMissed e s).pending = s.pending := by
  unfold countMissed
  try dsimp only
  repeat' split
  all_goals simp

/-- What `clearMissed` leaves alone. -/
@[simp] theorem clearMissed_keeps (s : State) :
    (clearMissed s).ksu = s.ksu ∧ (clearMissed s).chords = s.chords ∧ (clearMissed s).session = s.session ∧
    (clearMissed s).memory = s.memory ∧ (clearMissed s).dict = s.dict ∧ (clearMissed s).trans = s.trans ∧
    (clearMissed s).lines = s.lines ∧ (clearMissed s).cls = s.cls ∧ (clearMissed s).feeds = s.feeds ∧ (clearMissed s).marks = s.marks ∧
    (clearMissed s).reporter = s.reporter ∧ (clearMissed s).bench = s.bench ∧ (clearMissed s).pins = s.pins ∧
    (clearMissed s).now = s.now ∧ (clearMissed s).events = s.events ∧ (clearMissed s).pending = s.pending := by simp [clearMissed]

/-- What `abandonClear` leaves alone. -/
@[simp] theorem abandonClear_keeps (s : State) :
    (abandonClear s).ksu = s.ksu ∧ (abandonClear s).chords = s.chords ∧ (abandonClear s).session = s.session ∧
    (abandonClear s).memory = s.memory ∧ (abandonClear s).dict = s.dict ∧ (abandonClear s).trans = s.trans ∧
    (abandonClear s).lines = s.lines ∧ (abandonClear s).cls = s.cls ∧ (abandonClear s).feeds = s.feeds ∧
    (abandonClear s).marks = s.marks ∧ (abandonClear s).pins = s.pins ∧ (abandonClear s).now = s.now ∧
    (abandonClear s).events = s.events ∧ (abandonClear s).pending = s.pending := by
  unfold abandonClear
  try dsimp only
  repeat' split
  all_goals simp

/-- What `setFaulted` leaves alone. -/
@[simp] theorem setFaulted_keeps (c : FaultCause) (s : State) :
    (setFaulted c s).ksu = s.ksu ∧ (setFaulted c s).chords = s.chords ∧ (setFaulted c s).session = s.session ∧
    (setFaulted c s).memory = s.memory ∧ (setFaulted c s).dict = s.dict ∧ (setFaulted c s).trans = s.trans ∧
    (setFaulted c s).lines = s.lines ∧ (setFaulted c s).cls = s.cls ∧ (setFaulted c s).feeds = s.feeds ∧
    (setFaulted c s).marks = s.marks ∧ (setFaulted c s).reporter = s.reporter ∧ (setFaulted c s).bench = s.bench ∧
    (setFaulted c s).pins = s.pins ∧ (setFaulted c s).now = s.now ∧ (setFaulted c s).events = s.events ∧
    (setFaulted c s).pending = s.pending := by simp [setFaulted]

/-- What `faultCounts` leaves alone. -/
@[simp] theorem faultCounts_keeps (s : State) :
    (faultCounts s).ksu = s.ksu ∧ (faultCounts s).chords = s.chords ∧ (faultCounts s).session = s.session ∧
    (faultCounts s).memory = s.memory ∧ (faultCounts s).dict = s.dict ∧ (faultCounts s).trans = s.trans ∧
    (faultCounts s).lines = s.lines ∧ (faultCounts s).cls = s.cls ∧ (faultCounts s).feeds = s.feeds ∧ (faultCounts s).marks = s.marks ∧
    (faultCounts s).pins = s.pins ∧ (faultCounts s).now = s.now ∧ (faultCounts s).events = s.events ∧ (faultCounts s).pending = s.pending := by
  unfold faultCounts
  try dsimp only
  repeat' split
  all_goals simp

/-- What `enterFault` leaves alone. -/
@[simp] theorem enterFault_keeps (c : FaultCause) (s : State) :
    (enterFault c s).ksu = s.ksu ∧ (enterFault c s).chords = s.chords ∧ (enterFault c s).memory = s.memory ∧
    (enterFault c s).dict = s.dict ∧ (enterFault c s).trans = s.trans ∧ (enterFault c s).lines = s.lines ∧ (enterFault c s).cls = s.cls ∧
    (enterFault c s).feeds = s.feeds ∧ (enterFault c s).marks = s.marks ∧ (enterFault c s).pins = s.pins ∧ (enterFault c s).now = s.now ∧
    (enterFault c s).events = s.events ∧ (enterFault c s).pending = s.pending := by
  unfold enterFault
  try dsimp only
  repeat' split
  all_goals simp

/-- What `closeFilling` leaves alone. -/
@[simp] theorem closeFilling_keeps (r : CloseReason) (s : State) :
    (closeFilling r s).ksu = s.ksu ∧ (closeFilling r s).chords = s.chords ∧ (closeFilling r s).session = s.session ∧
    (closeFilling r s).memory = s.memory ∧ (closeFilling r s).dict = s.dict ∧ (closeFilling r s).trans = s.trans ∧
    (closeFilling r s).lines = s.lines ∧ (closeFilling r s).cls = s.cls ∧ (closeFilling r s).feeds = s.feeds ∧
    (closeFilling r s).marks = s.marks ∧ (closeFilling r s).reporter = s.reporter ∧ (closeFilling r s).bench = s.bench ∧
    (closeFilling r s).pins = s.pins ∧ (closeFilling r s).now = s.now ∧ (closeFilling r s).events = s.events ∧
    (closeFilling r s).pending = s.pending := by
  unfold closeFilling
  try dsimp only
  repeat' split
  all_goals simp

/-- What `putEntry` leaves alone. -/
@[simp] theorem putEntry_keeps (e : Entry) (s : State) :
    (putEntry e s).ksu = s.ksu ∧ (putEntry e s).chords = s.chords ∧ (putEntry e s).memory = s.memory ∧ (putEntry e s).dict = s.dict ∧
    (putEntry e s).trans = s.trans ∧ (putEntry e s).lines = s.lines ∧ (putEntry e s).cls = s.cls ∧ (putEntry e s).feeds = s.feeds ∧
    (putEntry e s).marks = s.marks ∧ (putEntry e s).pins = s.pins ∧ (putEntry e s).now = s.now ∧ (putEntry e s).events = s.events ∧
    (putEntry e s).pending = s.pending := by
  unfold putEntry
  split
  · simp
  · dsimp only
    repeat' split
    all_goals simp

/-- What `openBlock` leaves alone. -/
@[simp] theorem openBlock_keeps (i : Fin 4) (s : State) :
    (openBlock i s).ksu = s.ksu ∧ (openBlock i s).chords = s.chords ∧ (openBlock i s).session = s.session ∧
    (openBlock i s).memory = s.memory ∧ (openBlock i s).dict = s.dict ∧ (openBlock i s).trans = s.trans ∧
    (openBlock i s).lines = s.lines ∧ (openBlock i s).cls = s.cls ∧ (openBlock i s).feeds = s.feeds ∧ (openBlock i s).marks = s.marks ∧
    (openBlock i s).reporter = s.reporter ∧ (openBlock i s).bench = s.bench ∧ (openBlock i s).pins = s.pins ∧
    (openBlock i s).now = s.now ∧ (openBlock i s).events = s.events ∧ (openBlock i s).pending = s.pending := by simp [openBlock]

/-- What `putRestart` leaves alone. -/
@[simp] theorem putRestart_keeps (s : State) :
    (putRestart s).ksu = s.ksu ∧ (putRestart s).chords = s.chords ∧ (putRestart s).memory = s.memory ∧ (putRestart s).dict = s.dict ∧
    (putRestart s).trans = s.trans ∧ (putRestart s).lines = s.lines ∧ (putRestart s).cls = s.cls ∧ (putRestart s).feeds = s.feeds ∧
    (putRestart s).marks = s.marks ∧ (putRestart s).pins = s.pins ∧ (putRestart s).now = s.now ∧ (putRestart s).events = s.events ∧
    (putRestart s).pending = s.pending := by
  unfold putRestart
  try dsimp only
  repeat' split
  all_goals simp

/-- What `suspend` leaves alone. -/
@[simp] theorem suspend_keeps (e : Entry) (s : State) :
    (suspend e s).ksu = s.ksu ∧ (suspend e s).chords = s.chords ∧ (suspend e s).session = s.session ∧ (suspend e s).memory = s.memory ∧
    (suspend e s).dict = s.dict ∧ (suspend e s).trans = s.trans ∧ (suspend e s).lines = s.lines ∧ (suspend e s).cls = s.cls ∧
    (suspend e s).feeds = s.feeds ∧ (suspend e s).marks = s.marks ∧ (suspend e s).pins = s.pins ∧ (suspend e s).now = s.now ∧
    (suspend e s).events = s.events ∧ (suspend e s).pending = s.pending := by simp [suspend]

/-- What `putOrCount` leaves alone. -/
@[simp] theorem putOrCount_keeps (e : Entry) (s : State) :
    (putOrCount e s).ksu = s.ksu ∧ (putOrCount e s).chords = s.chords ∧ (putOrCount e s).memory = s.memory ∧
    (putOrCount e s).dict = s.dict ∧ (putOrCount e s).trans = s.trans ∧ (putOrCount e s).lines = s.lines ∧ (putOrCount e s).cls = s.cls ∧
    (putOrCount e s).feeds = s.feeds ∧ (putOrCount e s).marks = s.marks ∧ (putOrCount e s).pins = s.pins ∧ (putOrCount e s).now = s.now ∧
    (putOrCount e s).events = s.events ∧ (putOrCount e s).pending = s.pending := by
  unfold putOrCount
  try dsimp only
  repeat' split
  all_goals simp

/-- What `append` leaves alone. -/
@[simp] theorem append_keeps (e : Entry) (s : State) :
    (append e s).ksu = s.ksu ∧ (append e s).chords = s.chords ∧ (append e s).memory = s.memory ∧ (append e s).dict = s.dict ∧
    (append e s).trans = s.trans ∧ (append e s).lines = s.lines ∧ (append e s).cls = s.cls ∧ (append e s).feeds = s.feeds ∧
    (append e s).marks = s.marks ∧ (append e s).pins = s.pins ∧ (append e s).now = s.now ∧ (append e s).events = s.events ∧
    (append e s).pending = s.pending := by
  unfold append
  try dsimp only
  repeat' split
  all_goals simp

/-- What `endSuspension` leaves alone. -/
@[simp] theorem endSuspension_keeps (i : Fin 4) (s : State) :
    (endSuspension i s).ksu = s.ksu ∧ (endSuspension i s).chords = s.chords ∧ (endSuspension i s).memory = s.memory ∧
    (endSuspension i s).dict = s.dict ∧ (endSuspension i s).trans = s.trans ∧ (endSuspension i s).lines = s.lines ∧
    (endSuspension i s).cls = s.cls ∧ (endSuspension i s).feeds = s.feeds ∧ (endSuspension i s).marks = s.marks ∧
    (endSuspension i s).pins = s.pins ∧ (endSuspension i s).now = s.now ∧ (endSuspension i s).events = s.events ∧
    (endSuspension i s).pending = s.pending := by
  unfold endSuspension
  try dsimp only
  repeat' split
  all_goals simp

/-- What `lowCheck` leaves alone. -/
@[simp] theorem lowCheck_keeps (t : Journal) (s : State) :
    (lowCheck t s).ksu = s.ksu ∧ (lowCheck t s).chords = s.chords ∧ (lowCheck t s).session = s.session ∧
    (lowCheck t s).journal = s.journal ∧ (lowCheck t s).memory = s.memory ∧ (lowCheck t s).dict = s.dict ∧
    (lowCheck t s).trans = s.trans ∧ (lowCheck t s).lines = s.lines ∧ (lowCheck t s).cls = s.cls ∧ (lowCheck t s).feeds = s.feeds ∧
    (lowCheck t s).marks = s.marks ∧ (lowCheck t s).pins = s.pins ∧ (lowCheck t s).now = s.now ∧ (lowCheck t s).events = s.events ∧
    (lowCheck t s).pending = s.pending := by
  unfold lowCheck
  try dsimp only
  repeat' split
  all_goals simp

/-- What `askClose` leaves alone. -/
@[simp] theorem askClose_keeps (r : CloseReason) (s : State) :
    (askClose r s).ksu = s.ksu ∧ (askClose r s).chords = s.chords ∧ (askClose r s).session = s.session ∧
    (askClose r s).memory = s.memory ∧ (askClose r s).dict = s.dict ∧ (askClose r s).trans = s.trans ∧ (askClose r s).lines = s.lines ∧
    (askClose r s).cls = s.cls ∧ (askClose r s).feeds = s.feeds ∧ (askClose r s).marks = s.marks ∧ (askClose r s).reporter = s.reporter ∧
    (askClose r s).bench = s.bench ∧ (askClose r s).pins = s.pins ∧ (askClose r s).now = s.now ∧ (askClose r s).events = s.events ∧
    (askClose r s).pending = s.pending := by
  unfold askClose
  try dsimp only
  repeat' split
  all_goals simp

/-- What `failureCheck` leaves alone. -/
@[simp] theorem failureCheck_keeps (s : State) :
    (failureCheck s).ksu = s.ksu ∧ (failureCheck s).chords = s.chords ∧ (failureCheck s).memory = s.memory ∧
    (failureCheck s).dict = s.dict ∧ (failureCheck s).trans = s.trans ∧ (failureCheck s).lines = s.lines ∧ (failureCheck s).cls = s.cls ∧
    (failureCheck s).feeds = s.feeds ∧ (failureCheck s).marks = s.marks ∧ (failureCheck s).pins = s.pins ∧ (failureCheck s).now = s.now ∧
    (failureCheck s).events = s.events ∧ (failureCheck s).pending = s.pending := by
  unfold failureCheck
  try dsimp only
  repeat' split
  all_goals simp

/-- What `resumeIfSuspended` leaves alone. -/
@[simp] theorem resumeIfSuspended_keeps (i : Fin 4) (s : State) :
    (resumeIfSuspended i s).ksu = s.ksu ∧ (resumeIfSuspended i s).chords = s.chords ∧ (resumeIfSuspended i s).memory = s.memory ∧
    (resumeIfSuspended i s).dict = s.dict ∧ (resumeIfSuspended i s).trans = s.trans ∧ (resumeIfSuspended i s).lines = s.lines ∧
    (resumeIfSuspended i s).cls = s.cls ∧ (resumeIfSuspended i s).feeds = s.feeds ∧ (resumeIfSuspended i s).marks = s.marks ∧
    (resumeIfSuspended i s).pins = s.pins ∧ (resumeIfSuspended i s).now = s.now ∧ (resumeIfSuspended i s).events = s.events ∧
    (resumeIfSuspended i s).pending = s.pending := by
  unfold resumeIfSuspended
  try dsimp only
  repeat' split
  all_goals simp

/-- What `openClass` leaves alone. -/
@[simp] theorem openClass_keeps (s : State) :
    (openClass s).ksu = s.ksu ∧ (openClass s).chords = s.chords ∧ (openClass s).session = s.session ∧ (openClass s).journal = s.journal ∧
    (openClass s).memory = s.memory ∧ (openClass s).dict = s.dict ∧ (openClass s).trans = s.trans ∧ (openClass s).lines = s.lines ∧
    (openClass s).feeds = s.feeds ∧ (openClass s).marks = s.marks ∧ (openClass s).reporter = s.reporter ∧ (openClass s).bench = s.bench ∧
    (openClass s).pins = s.pins ∧ (openClass s).now = s.now ∧ (openClass s).events = s.events ∧ (openClass s).pending = s.pending := by simp [openClass]

/-- What `reformClass` leaves alone. -/
@[simp] theorem reformClass_keeps (n : Nat) (s : State) :
    (reformClass n s).ksu = s.ksu ∧ (reformClass n s).chords = s.chords ∧ (reformClass n s).memory = s.memory ∧
    (reformClass n s).dict = s.dict ∧ (reformClass n s).trans = s.trans ∧ (reformClass n s).lines = s.lines ∧
    (reformClass n s).feeds = s.feeds ∧ (reformClass n s).marks = s.marks ∧ (reformClass n s).pins = s.pins ∧
    (reformClass n s).now = s.now ∧ (reformClass n s).events = s.events ∧ (reformClass n s).pending = s.pending := by
  unfold reformClass
  try dsimp only
  repeat' split
  all_goals simp

/-- What `takeSbar` leaves alone. -/
@[simp] theorem takeSbar_keeps (s : State) :
    (takeSbar s).ksu = s.ksu ∧ (takeSbar s).chords = s.chords ∧ (takeSbar s).memory = s.memory ∧ (takeSbar s).dict = s.dict ∧
    (takeSbar s).trans = s.trans ∧ (takeSbar s).lines = s.lines ∧ (takeSbar s).feeds = s.feeds ∧ (takeSbar s).marks = s.marks ∧
    (takeSbar s).pins = s.pins ∧ (takeSbar s).now = s.now ∧ (takeSbar s).events = s.events ∧ (takeSbar s).pending = s.pending := by
  unfold takeSbar
  try dsimp only
  repeat' split
  all_goals simp

/-- What `followSbar` leaves alone. -/
@[simp] theorem followSbar_keeps (s : State) :
    (followSbar s).ksu = s.ksu ∧ (followSbar s).chords = s.chords ∧ (followSbar s).memory = s.memory ∧ (followSbar s).dict = s.dict ∧
    (followSbar s).trans = s.trans ∧ (followSbar s).lines = s.lines ∧ (followSbar s).feeds = s.feeds ∧ (followSbar s).marks = s.marks ∧
    (followSbar s).pins = s.pins ∧ (followSbar s).now = s.now ∧ (followSbar s).events = s.events ∧ (followSbar s).pending = s.pending := by
  unfold followSbar
  try dsimp only
  repeat' split
  all_goals simp

/-- What `ignoreActive` leaves alone. -/
@[simp] theorem ignoreActive_keeps (s : State) :
    (ignoreActive s).chords = s.chords ∧ (ignoreActive s).session = s.session ∧ (ignoreActive s).journal = s.journal ∧
    (ignoreActive s).memory = s.memory ∧ (ignoreActive s).dict = s.dict ∧ (ignoreActive s).trans = s.trans ∧
    (ignoreActive s).lines = s.lines ∧ (ignoreActive s).cls = s.cls ∧ (ignoreActive s).feeds = s.feeds ∧
    (ignoreActive s).marks = s.marks ∧ (ignoreActive s).reporter = s.reporter ∧ (ignoreActive s).bench = s.bench ∧
    (ignoreActive s).pins = s.pins ∧ (ignoreActive s).now = s.now ∧ (ignoreActive s).events = s.events ∧
    (ignoreActive s).pending = s.pending := by simp [ignoreActive]

/-- What `clearTouched` leaves alone. -/
@[simp] theorem clearTouched_keeps (s : State) :
    (clearTouched s).chords = s.chords ∧ (clearTouched s).session = s.session ∧ (clearTouched s).journal = s.journal ∧
    (clearTouched s).memory = s.memory ∧ (clearTouched s).dict = s.dict ∧ (clearTouched s).trans = s.trans ∧
    (clearTouched s).lines = s.lines ∧ (clearTouched s).cls = s.cls ∧ (clearTouched s).feeds = s.feeds ∧
    (clearTouched s).marks = s.marks ∧ (clearTouched s).reporter = s.reporter ∧ (clearTouched s).bench = s.bench ∧
    (clearTouched s).pins = s.pins ∧ (clearTouched s).now = s.now ∧ (clearTouched s).events = s.events ∧
    (clearTouched s).pending = s.pending := by simp [clearTouched]

/-- What `clearChord` leaves alone. -/
@[simp] theorem clearChord_keeps (s : State) :
    (clearChord s).session = s.session ∧ (clearChord s).journal = s.journal ∧ (clearChord s).memory = s.memory ∧
    (clearChord s).dict = s.dict ∧ (clearChord s).trans = s.trans ∧ (clearChord s).lines = s.lines ∧ (clearChord s).cls = s.cls ∧
    (clearChord s).feeds = s.feeds ∧ (clearChord s).marks = s.marks ∧ (clearChord s).reporter = s.reporter ∧
    (clearChord s).bench = s.bench ∧ (clearChord s).pins = s.pins ∧ (clearChord s).now = s.now ∧ (clearChord s).events = s.events ∧
    (clearChord s).pending = s.pending := by simp [clearChord]

/-- What `openChord` leaves alone. -/
@[simp] theorem openChord_keeps (i : Nat) (s : State) :
    (openChord i s).session = s.session ∧ (openChord i s).journal = s.journal ∧ (openChord i s).memory = s.memory ∧
    (openChord i s).dict = s.dict ∧ (openChord i s).trans = s.trans ∧ (openChord i s).lines = s.lines ∧ (openChord i s).cls = s.cls ∧
    (openChord i s).feeds = s.feeds ∧ (openChord i s).marks = s.marks ∧ (openChord i s).reporter = s.reporter ∧
    (openChord i s).bench = s.bench ∧ (openChord i s).pins = s.pins ∧ (openChord i s).now = s.now ∧ (openChord i s).events = s.events ∧
    (openChord i s).pending = s.pending := by simp [openChord]

/-- What `abandonChord` leaves alone. -/
@[simp] theorem abandonChord_keeps (s : State) :
    (abandonChord s).session = s.session ∧ (abandonChord s).journal = s.journal ∧ (abandonChord s).memory = s.memory ∧
    (abandonChord s).dict = s.dict ∧ (abandonChord s).trans = s.trans ∧ (abandonChord s).lines = s.lines ∧ (abandonChord s).cls = s.cls ∧
    (abandonChord s).feeds = s.feeds ∧ (abandonChord s).marks = s.marks ∧ (abandonChord s).reporter = s.reporter ∧
    (abandonChord s).bench = s.bench ∧ (abandonChord s).pins = s.pins ∧ (abandonChord s).now = s.now ∧
    (abandonChord s).events = s.events ∧ (abandonChord s).pending = s.pending := by
  unfold abandonChord
  try dsimp only
  repeat' split
  all_goals simp

/-- What `closeChord` leaves alone. -/
@[simp] theorem closeChord_keeps (c : Chord) (s : State) :
    (closeChord c s).memory = s.memory ∧ (closeChord c s).dict = s.dict ∧ (closeChord c s).lines = s.lines ∧
    (closeChord c s).cls = s.cls ∧ (closeChord c s).feeds = s.feeds ∧ (closeChord c s).marks = s.marks ∧ (closeChord c s).pins = s.pins ∧
    (closeChord c s).now = s.now ∧ (closeChord c s).events = s.events ∧ (closeChord c s).pending = s.pending := by
  unfold closeChord
  try dsimp only
  repeat' split
  all_goals simp

/-- What `keyWentDown` leaves alone. -/
@[simp] theorem keyWentDown_keeps (i : Nat) (s : State) :
    (keyWentDown i s).session = s.session ∧ (keyWentDown i s).journal = s.journal ∧ (keyWentDown i s).memory = s.memory ∧
    (keyWentDown i s).dict = s.dict ∧ (keyWentDown i s).trans = s.trans ∧ (keyWentDown i s).lines = s.lines ∧
    (keyWentDown i s).cls = s.cls ∧ (keyWentDown i s).feeds = s.feeds ∧ (keyWentDown i s).marks = s.marks ∧
    (keyWentDown i s).reporter = s.reporter ∧ (keyWentDown i s).bench = s.bench ∧ (keyWentDown i s).pins = s.pins ∧
    (keyWentDown i s).now = s.now ∧ (keyWentDown i s).events = s.events ∧ (keyWentDown i s).pending = s.pending := by
  unfold keyWentDown
  try dsimp only
  repeat' split
  all_goals simp

/-- What `keyWentUp` leaves alone. -/
@[simp] theorem keyWentUp_keeps (i : Nat) (s : State) :
    (keyWentUp i s).memory = s.memory ∧ (keyWentUp i s).dict = s.dict ∧ (keyWentUp i s).lines = s.lines ∧ (keyWentUp i s).cls = s.cls ∧
    (keyWentUp i s).feeds = s.feeds ∧ (keyWentUp i s).marks = s.marks ∧ (keyWentUp i s).pins = s.pins ∧ (keyWentUp i s).now = s.now ∧
    (keyWentUp i s).events = s.events ∧ (keyWentUp i s).pending = s.pending := by
  unfold keyWentUp
  try dsimp only
  repeat' split
  all_goals simp

/-- What `reportMove` leaves alone. -/
@[simp] theorem reportMove_keeps (i : Nat) (m : KeyMove) (s : State) :
    (reportMove i m s).memory = s.memory ∧ (reportMove i m s).dict = s.dict ∧ (reportMove i m s).lines = s.lines ∧
    (reportMove i m s).cls = s.cls ∧ (reportMove i m s).feeds = s.feeds ∧ (reportMove i m s).marks = s.marks ∧
    (reportMove i m s).pins = s.pins ∧ (reportMove i m s).now = s.now ∧ (reportMove i m s).events = s.events ∧
    (reportMove i m s).pending = s.pending := by cases m <;> simp [reportMove]

/-- What `lightTouch` leaves alone. -/
@[simp] theorem lightTouch_keeps (i : Nat) (k : Key) (s : State) :
    (lightTouch i k s).chords = s.chords ∧ (lightTouch i k s).session = s.session ∧ (lightTouch i k s).journal = s.journal ∧
    (lightTouch i k s).memory = s.memory ∧ (lightTouch i k s).dict = s.dict ∧ (lightTouch i k s).trans = s.trans ∧
    (lightTouch i k s).lines = s.lines ∧ (lightTouch i k s).cls = s.cls ∧ (lightTouch i k s).feeds = s.feeds ∧
    (lightTouch i k s).marks = s.marks ∧ (lightTouch i k s).reporter = s.reporter ∧ (lightTouch i k s).bench = s.bench ∧
    (lightTouch i k s).pins = s.pins ∧ (lightTouch i k s).now = s.now ∧ (lightTouch i k s).events = s.events ∧
    (lightTouch i k s).pending = s.pending := by
  unfold lightTouch
  try dsimp only
  repeat' split
  all_goals simp

/-- What `stepSample` leaves alone. -/
@[simp] theorem stepSample_keeps (n : Nat) (s : State) :
    (stepSample n s).1.chords = s.chords ∧ (stepSample n s).1.session = s.session ∧ (stepSample n s).1.journal = s.journal ∧
    (stepSample n s).1.memory = s.memory ∧ (stepSample n s).1.dict = s.dict ∧ (stepSample n s).1.trans = s.trans ∧
    (stepSample n s).1.lines = s.lines ∧ (stepSample n s).1.cls = s.cls ∧ (stepSample n s).1.feeds = s.feeds ∧
    (stepSample n s).1.marks = s.marks ∧ (stepSample n s).1.reporter = s.reporter ∧ (stepSample n s).1.bench = s.bench ∧
    (stepSample n s).1.pins = s.pins ∧ (stepSample n s).1.now = s.now ∧ (stepSample n s).1.events = s.events ∧
    (stepSample n s).1.pending = s.pending := by simp [stepSample]

/-- What `takeSample` leaves alone. -/
@[simp] theorem takeSample_keeps (n : Nat) (s : State) :
    (takeSample n s).memory = s.memory ∧ (takeSample n s).dict = s.dict ∧ (takeSample n s).lines = s.lines ∧
    (takeSample n s).cls = s.cls ∧ (takeSample n s).feeds = s.feeds ∧ (takeSample n s).marks = s.marks ∧ (takeSample n s).pins = s.pins ∧
    (takeSample n s).now = s.now ∧ (takeSample n s).events = s.events ∧ (takeSample n s).pending = s.pending := by simp [takeSample]

/-- What `settleZeroing` leaves alone. -/
@[simp] theorem settleZeroing_keeps (z : Zeroing) (s : State) :
    (settleZeroing z s).chords = s.chords ∧ (settleZeroing z s).session = s.session ∧ (settleZeroing z s).journal = s.journal ∧
    (settleZeroing z s).memory = s.memory ∧ (settleZeroing z s).dict = s.dict ∧ (settleZeroing z s).trans = s.trans ∧
    (settleZeroing z s).lines = s.lines ∧ (settleZeroing z s).cls = s.cls ∧ (settleZeroing z s).feeds = s.feeds ∧
    (settleZeroing z s).marks = s.marks ∧ (settleZeroing z s).pins = s.pins ∧ (settleZeroing z s).now = s.now ∧
    (settleZeroing z s).events = s.events ∧ (settleZeroing z s).pending = s.pending := by simp [settleZeroing]

/-- What `refreshHealth` leaves alone. -/
@[simp] theorem refreshHealth_keeps (f : Fin 4) (s : State) :
    (refreshHealth f s).ksu = s.ksu ∧ (refreshHealth f s).chords = s.chords ∧ (refreshHealth f s).session = s.session ∧
    (refreshHealth f s).journal = s.journal ∧ (refreshHealth f s).memory = s.memory ∧ (refreshHealth f s).dict = s.dict ∧
    (refreshHealth f s).trans = s.trans ∧ (refreshHealth f s).lines = s.lines ∧ (refreshHealth f s).cls = s.cls ∧
    (refreshHealth f s).marks = s.marks ∧ (refreshHealth f s).pins = s.pins ∧ (refreshHealth f s).now = s.now ∧
    (refreshHealth f s).events = s.events ∧ (refreshHealth f s).pending = s.pending := by
  unfold refreshHealth
  try dsimp only
  repeat' split
  all_goals simp

/-- What `liftLowWaters` leaves alone. -/
@[simp] theorem liftLowWaters_keeps (s : State) :
    (liftLowWaters s).ksu = s.ksu ∧ (liftLowWaters s).chords = s.chords ∧ (liftLowWaters s).session = s.session ∧
    (liftLowWaters s).journal = s.journal ∧ (liftLowWaters s).memory = s.memory ∧ (liftLowWaters s).dict = s.dict ∧
    (liftLowWaters s).trans = s.trans ∧ (liftLowWaters s).lines = s.lines ∧ (liftLowWaters s).cls = s.cls ∧
    (liftLowWaters s).marks = s.marks ∧ (liftLowWaters s).reporter = s.reporter ∧ (liftLowWaters s).bench = s.bench ∧
    (liftLowWaters s).pins = s.pins ∧ (liftLowWaters s).now = s.now ∧ (liftLowWaters s).events = s.events ∧
    (liftLowWaters s).pending = s.pending := by simp [liftLowWaters]

/-- What `removeDone` leaves alone. -/
@[simp] theorem removeDone_keeps (s : State) :
    (removeDone s).ksu = s.ksu ∧ (removeDone s).chords = s.chords ∧ (removeDone s).session = s.session ∧
    (removeDone s).journal = s.journal ∧ (removeDone s).memory = s.memory ∧ (removeDone s).dict = s.dict ∧
    (removeDone s).trans = s.trans ∧ (removeDone s).cls = s.cls ∧ (removeDone s).marks = s.marks ∧ (removeDone s).reporter = s.reporter ∧
    (removeDone s).bench = s.bench ∧ (removeDone s).pins = s.pins ∧ (removeDone s).now = s.now ∧ (removeDone s).events = s.events ∧
    (removeDone s).pending = s.pending := by simp [removeDone]

/-- What `writeSent` leaves alone. -/
@[simp] theorem writeSent_keeps (f : Fin 4) (l : Line) (s : State) :
    (writeSent f l s).ksu = s.ksu ∧ (writeSent f l s).chords = s.chords ∧ (writeSent f l s).session = s.session ∧
    (writeSent f l s).journal = s.journal ∧ (writeSent f l s).memory = s.memory ∧ (writeSent f l s).dict = s.dict ∧
    (writeSent f l s).trans = s.trans ∧ (writeSent f l s).cls = s.cls ∧ (writeSent f l s).feeds = s.feeds ∧
    (writeSent f l s).marks = s.marks ∧ (writeSent f l s).reporter = s.reporter ∧ (writeSent f l s).bench = s.bench ∧
    (writeSent f l s).pins = s.pins ∧ (writeSent f l s).now = s.now ∧ (writeSent f l s).events = s.events ∧
    (writeSent f l s).pending = s.pending := by simp [writeSent]

/-- What `writeWithdrawSent` leaves alone. -/
@[simp] theorem writeWithdrawSent_keeps (f : Fin 4) (l : Line) (s : State) :
    (writeWithdrawSent f l s).ksu = s.ksu ∧ (writeWithdrawSent f l s).chords = s.chords ∧ (writeWithdrawSent f l s).session = s.session ∧
    (writeWithdrawSent f l s).journal = s.journal ∧ (writeWithdrawSent f l s).memory = s.memory ∧
    (writeWithdrawSent f l s).dict = s.dict ∧ (writeWithdrawSent f l s).trans = s.trans ∧ (writeWithdrawSent f l s).cls = s.cls ∧
    (writeWithdrawSent f l s).marks = s.marks ∧ (writeWithdrawSent f l s).reporter = s.reporter ∧
    (writeWithdrawSent f l s).bench = s.bench ∧ (writeWithdrawSent f l s).pins = s.pins ∧ (writeWithdrawSent f l s).now = s.now ∧
    (writeWithdrawSent f l s).events = s.events ∧ (writeWithdrawSent f l s).pending = s.pending := by simp [writeWithdrawSent]

/-- What `setFlight` leaves alone. -/
@[simp] theorem setFlight_keeps (f : Fin 4) (fr : FeedFrame) (s : State) :
    (setFlight f fr s).ksu = s.ksu ∧ (setFlight f fr s).chords = s.chords ∧ (setFlight f fr s).session = s.session ∧
    (setFlight f fr s).journal = s.journal ∧ (setFlight f fr s).memory = s.memory ∧ (setFlight f fr s).dict = s.dict ∧
    (setFlight f fr s).trans = s.trans ∧ (setFlight f fr s).lines = s.lines ∧ (setFlight f fr s).cls = s.cls ∧
    (setFlight f fr s).marks = s.marks ∧ (setFlight f fr s).reporter = s.reporter ∧ (setFlight f fr s).bench = s.bench ∧
    (setFlight f fr s).pins = s.pins ∧ (setFlight f fr s).now = s.now ∧ (setFlight f fr s).events = s.events ∧
    (setFlight f fr s).pending = s.pending := by simp [setFlight]

/-- What `startFrame` leaves alone. -/
@[simp] theorem startFrame_keeps (f : Fin 4) (d : Due) (s : State) :
    (startFrame f d s).ksu = s.ksu ∧ (startFrame f d s).chords = s.chords ∧ (startFrame f d s).session = s.session ∧
    (startFrame f d s).journal = s.journal ∧ (startFrame f d s).memory = s.memory ∧ (startFrame f d s).dict = s.dict ∧
    (startFrame f d s).trans = s.trans ∧ (startFrame f d s).cls = s.cls ∧ (startFrame f d s).marks = s.marks ∧
    (startFrame f d s).pins = s.pins ∧ (startFrame f d s).now = s.now ∧ (startFrame f d s).events = s.events ∧
    (startFrame f d s).pending = s.pending := by
  unfold startFrame
  cases d
  case test => dsimp only; split <;> simp
  all_goals simp

/-- What `startStall` leaves alone. -/
@[simp] theorem startStall_keeps (f : Fin 4) (s : State) :
    (startStall f s).ksu = s.ksu ∧ (startStall f s).chords = s.chords ∧ (startStall f s).session = s.session ∧
    (startStall f s).journal = s.journal ∧ (startStall f s).memory = s.memory ∧ (startStall f s).dict = s.dict ∧
    (startStall f s).trans = s.trans ∧ (startStall f s).lines = s.lines ∧ (startStall f s).cls = s.cls ∧
    (startStall f s).marks = s.marks ∧ (startStall f s).reporter = s.reporter ∧ (startStall f s).bench = s.bench ∧
    (startStall f s).pins = s.pins ∧ (startStall f s).now = s.now ∧ (startStall f s).events = s.events ∧
    (startStall f s).pending = s.pending := by simp [startStall]

/-- What `actOn` leaves alone. -/
@[simp] theorem actOn_keeps (f : Fin 4) (d : Due) (s : State) :
    (actOn f d s).ksu = s.ksu ∧ (actOn f d s).chords = s.chords ∧ (actOn f d s).session = s.session ∧ (actOn f d s).journal = s.journal ∧
    (actOn f d s).memory = s.memory ∧ (actOn f d s).dict = s.dict ∧ (actOn f d s).trans = s.trans ∧ (actOn f d s).cls = s.cls ∧
    (actOn f d s).marks = s.marks ∧ (actOn f d s).pins = s.pins ∧ (actOn f d s).now = s.now ∧ (actOn f d s).events = s.events ∧
    (actOn f d s).pending = s.pending := by
  unfold actOn
  try dsimp only
  repeat' split
  all_goals simp

/-- What `raiseLow` leaves alone. -/
@[simp] theorem raiseLow_keeps (f : Fin 4) (s : State) :
    (raiseLow f s).ksu = s.ksu ∧ (raiseLow f s).chords = s.chords ∧ (raiseLow f s).session = s.session ∧
    (raiseLow f s).journal = s.journal ∧ (raiseLow f s).memory = s.memory ∧ (raiseLow f s).dict = s.dict ∧
    (raiseLow f s).trans = s.trans ∧ (raiseLow f s).lines = s.lines ∧ (raiseLow f s).cls = s.cls ∧ (raiseLow f s).marks = s.marks ∧
    (raiseLow f s).reporter = s.reporter ∧ (raiseLow f s).bench = s.bench ∧ (raiseLow f s).pins = s.pins ∧ (raiseLow f s).now = s.now ∧
    (raiseLow f s).events = s.events ∧ (raiseLow f s).pending = s.pending := by simp [raiseLow]

/-- What `chooseLive` leaves alone. -/
@[simp] theorem chooseLive_keeps (f : Fin 4) (s : State) :
    (chooseLive f s).ksu = s.ksu ∧ (chooseLive f s).chords = s.chords ∧ (chooseLive f s).session = s.session ∧
    (chooseLive f s).journal = s.journal ∧ (chooseLive f s).memory = s.memory ∧ (chooseLive f s).dict = s.dict ∧
    (chooseLive f s).trans = s.trans ∧ (chooseLive f s).cls = s.cls ∧ (chooseLive f s).marks = s.marks ∧ (chooseLive f s).pins = s.pins ∧
    (chooseLive f s).now = s.now ∧ (chooseLive f s).events = s.events ∧ (chooseLive f s).pending = s.pending := by
  unfold chooseLive
  simp only [raiseLow_keeps]
  split <;> simp

/-- What `choose` leaves alone. -/
@[simp] theorem choose_keeps (f : Fin 4) (s : State) :
    (choose f s).ksu = s.ksu ∧ (choose f s).chords = s.chords ∧ (choose f s).session = s.session ∧ (choose f s).journal = s.journal ∧
    (choose f s).memory = s.memory ∧ (choose f s).dict = s.dict ∧ (choose f s).trans = s.trans ∧ (choose f s).cls = s.cls ∧
    (choose f s).marks = s.marks ∧ (choose f s).pins = s.pins ∧ (choose f s).now = s.now ∧ (choose f s).events = s.events ∧
    (choose f s).pending = s.pending := by
  unfold choose
  dsimp only
  repeat' split
  all_goals simp

/-- What `chooseAll` leaves alone. -/
@[simp] theorem chooseAll_keeps (s : State) :
    (chooseAll s).ksu = s.ksu ∧ (chooseAll s).chords = s.chords ∧ (chooseAll s).session = s.session ∧ (chooseAll s).journal = s.journal ∧
    (chooseAll s).memory = s.memory ∧ (chooseAll s).dict = s.dict ∧ (chooseAll s).trans = s.trans ∧ (chooseAll s).cls = s.cls ∧
    (chooseAll s).marks = s.marks ∧ (chooseAll s).pins = s.pins ∧ (chooseAll s).now = s.now ∧ (chooseAll s).events = s.events ∧
    (chooseAll s).pending = s.pending := by simp [chooseAll, allFeeds]

/-- What `takeEdit` leaves alone. -/
@[simp] theorem takeEdit_keeps (n : Nat) (f : Fin 4) (s : State) :
    (takeEdit n s f).ksu = s.ksu ∧ (takeEdit n s f).chords = s.chords ∧ (takeEdit n s f).session = s.session ∧
    (takeEdit n s f).journal = s.journal ∧ (takeEdit n s f).memory = s.memory ∧ (takeEdit n s f).dict = s.dict ∧
    (takeEdit n s f).trans = s.trans ∧ (takeEdit n s f).lines = s.lines ∧ (takeEdit n s f).cls = s.cls ∧
    (takeEdit n s f).marks = s.marks ∧ (takeEdit n s f).pins = s.pins ∧ (takeEdit n s f).now = s.now ∧
    (takeEdit n s f).events = s.events ∧ (takeEdit n s f).pending = s.pending := by
  unfold takeEdit
  try dsimp only
  repeat' split
  all_goals simp

/-- What `editNotice` leaves alone. -/
@[simp] theorem editNotice_keeps (n : Nat) (s : State) :
    (editNotice n s).ksu = s.ksu ∧ (editNotice n s).chords = s.chords ∧ (editNotice n s).session = s.session ∧
    (editNotice n s).journal = s.journal ∧ (editNotice n s).memory = s.memory ∧ (editNotice n s).dict = s.dict ∧
    (editNotice n s).trans = s.trans ∧ (editNotice n s).lines = s.lines ∧ (editNotice n s).cls = s.cls ∧
    (editNotice n s).marks = s.marks ∧ (editNotice n s).pins = s.pins ∧ (editNotice n s).now = s.now ∧
    (editNotice n s).events = s.events ∧ (editNotice n s).pending = s.pending := by simp [editNotice, allFeeds]

/-- What `takeReclaim` leaves alone. -/
@[simp] theorem takeReclaim_keeps (rs : List Line) (l : Line) (f : Fin 4) (s : State) :
    (takeReclaim rs l s f).ksu = s.ksu ∧ (takeReclaim rs l s f).chords = s.chords ∧ (takeReclaim rs l s f).session = s.session ∧
    (takeReclaim rs l s f).journal = s.journal ∧ (takeReclaim rs l s f).memory = s.memory ∧ (takeReclaim rs l s f).dict = s.dict ∧
    (takeReclaim rs l s f).trans = s.trans ∧ (takeReclaim rs l s f).lines = s.lines ∧ (takeReclaim rs l s f).cls = s.cls ∧
    (takeReclaim rs l s f).marks = s.marks ∧ (takeReclaim rs l s f).pins = s.pins ∧ (takeReclaim rs l s f).now = s.now ∧
    (takeReclaim rs l s f).events = s.events ∧ (takeReclaim rs l s f).pending = s.pending := by
  unfold takeReclaim
  try dsimp only
  repeat' split
  all_goals simp

/-- What `reclaimFeeds` leaves alone. -/
@[simp] theorem reclaimFeeds_keeps (rs : List Line) (l : Line) (s : State) :
    (reclaimFeeds rs l s).ksu = s.ksu ∧ (reclaimFeeds rs l s).chords = s.chords ∧ (reclaimFeeds rs l s).session = s.session ∧
    (reclaimFeeds rs l s).journal = s.journal ∧ (reclaimFeeds rs l s).memory = s.memory ∧ (reclaimFeeds rs l s).dict = s.dict ∧
    (reclaimFeeds rs l s).trans = s.trans ∧ (reclaimFeeds rs l s).lines = s.lines ∧ (reclaimFeeds rs l s).cls = s.cls ∧
    (reclaimFeeds rs l s).marks = s.marks ∧ (reclaimFeeds rs l s).pins = s.pins ∧ (reclaimFeeds rs l s).now = s.now ∧
    (reclaimFeeds rs l s).events = s.events ∧ (reclaimFeeds rs l s).pending = s.pending := by simp [reclaimFeeds, allFeeds]

/-- What `clearPerLine` leaves alone. -/
@[simp] theorem clearPerLine_keeps (f : Fin 4) (s : State) :
    (clearPerLine f s).ksu = s.ksu ∧ (clearPerLine f s).chords = s.chords ∧ (clearPerLine f s).session = s.session ∧
    (clearPerLine f s).journal = s.journal ∧ (clearPerLine f s).memory = s.memory ∧ (clearPerLine f s).dict = s.dict ∧
    (clearPerLine f s).trans = s.trans ∧ (clearPerLine f s).cls = s.cls ∧ (clearPerLine f s).feeds = s.feeds ∧
    (clearPerLine f s).marks = s.marks ∧ (clearPerLine f s).reporter = s.reporter ∧ (clearPerLine f s).bench = s.bench ∧
    (clearPerLine f s).pins = s.pins ∧ (clearPerLine f s).now = s.now ∧ (clearPerLine f s).events = s.events ∧
    (clearPerLine f s).pending = s.pending := by simp [clearPerLine]

/-- What `becomeOff` leaves alone. -/
@[simp] theorem becomeOff_keeps (f : Fin 4) (s : State) :
    (becomeOff f s).ksu = s.ksu ∧ (becomeOff f s).chords = s.chords ∧ (becomeOff f s).session = s.session ∧
    (becomeOff f s).journal = s.journal ∧ (becomeOff f s).memory = s.memory ∧ (becomeOff f s).dict = s.dict ∧
    (becomeOff f s).trans = s.trans ∧ (becomeOff f s).cls = s.cls ∧ (becomeOff f s).marks = s.marks ∧ (becomeOff f s).pins = s.pins ∧
    (becomeOff f s).now = s.now ∧ (becomeOff f s).events = s.events ∧ (becomeOff f s).pending = s.pending := by simp [becomeOff]

/-- What `enterByHold` leaves alone. -/
@[simp] theorem enterByHold_keeps (f : Fin 4) (s : State) :
    (enterByHold f s).ksu = s.ksu ∧ (enterByHold f s).chords = s.chords ∧ (enterByHold f s).session = s.session ∧
    (enterByHold f s).journal = s.journal ∧ (enterByHold f s).memory = s.memory ∧ (enterByHold f s).dict = s.dict ∧
    (enterByHold f s).trans = s.trans ∧ (enterByHold f s).lines = s.lines ∧ (enterByHold f s).cls = s.cls ∧
    (enterByHold f s).marks = s.marks ∧ (enterByHold f s).reporter = s.reporter ∧ (enterByHold f s).bench = s.bench ∧
    (enterByHold f s).pins = s.pins ∧ (enterByHold f s).now = s.now ∧ (enterByHold f s).events = s.events ∧
    (enterByHold f s).pending = s.pending := by simp [enterByHold]

/-- What `holdChanged` leaves alone. -/
@[simp] theorem holdChanged_keeps (f : Fin 4) (s : State) :
    (holdChanged f s).ksu = s.ksu ∧ (holdChanged f s).chords = s.chords ∧ (holdChanged f s).session = s.session ∧
    (holdChanged f s).journal = s.journal ∧ (holdChanged f s).memory = s.memory ∧ (holdChanged f s).dict = s.dict ∧
    (holdChanged f s).trans = s.trans ∧ (holdChanged f s).cls = s.cls ∧ (holdChanged f s).marks = s.marks ∧
    (holdChanged f s).pins = s.pins ∧ (holdChanged f s).now = s.now ∧ (holdChanged f s).events = s.events ∧
    (holdChanged f s).pending = s.pending := by
  unfold holdChanged
  try dsimp only
  repeat' split
  all_goals simp

/-- What `feedAtOpen` leaves alone. -/
@[simp] theorem feedAtOpen_keeps (f : Fin 4) (s : State) :
    (feedAtOpen s f).ksu = s.ksu ∧ (feedAtOpen s f).chords = s.chords ∧ (feedAtOpen s f).session = s.session ∧
    (feedAtOpen s f).journal = s.journal ∧ (feedAtOpen s f).memory = s.memory ∧ (feedAtOpen s f).dict = s.dict ∧
    (feedAtOpen s f).trans = s.trans ∧ (feedAtOpen s f).lines = s.lines ∧ (feedAtOpen s f).cls = s.cls ∧
    (feedAtOpen s f).marks = s.marks ∧ (feedAtOpen s f).pins = s.pins ∧ (feedAtOpen s f).now = s.now ∧
    (feedAtOpen s f).events = s.events ∧ (feedAtOpen s f).pending = s.pending := by
  unfold feedAtOpen
  try dsimp only
  repeat' split
  all_goals simp

/-- What `feedsAtOpen` leaves alone. -/
@[simp] theorem feedsAtOpen_keeps (s : State) :
    (feedsAtOpen s).ksu = s.ksu ∧ (feedsAtOpen s).chords = s.chords ∧ (feedsAtOpen s).session = s.session ∧
    (feedsAtOpen s).journal = s.journal ∧ (feedsAtOpen s).memory = s.memory ∧ (feedsAtOpen s).dict = s.dict ∧
    (feedsAtOpen s).trans = s.trans ∧ (feedsAtOpen s).lines = s.lines ∧ (feedsAtOpen s).cls = s.cls ∧ (feedsAtOpen s).marks = s.marks ∧
    (feedsAtOpen s).pins = s.pins ∧ (feedsAtOpen s).now = s.now ∧ (feedsAtOpen s).events = s.events ∧ (feedsAtOpen s).pending = s.pending := by simp [feedsAtOpen, allFeeds]

/-- What `endTest` leaves alone. -/
@[simp] theorem endTest_keeps (f : Fin 4) (o : TestOutcome) (s : State) :
    (endTest f o s).ksu = s.ksu ∧ (endTest f o s).chords = s.chords ∧ (endTest f o s).session = s.session ∧
    (endTest f o s).journal = s.journal ∧ (endTest f o s).memory = s.memory ∧ (endTest f o s).dict = s.dict ∧
    (endTest f o s).trans = s.trans ∧ (endTest f o s).cls = s.cls ∧ (endTest f o s).marks = s.marks ∧ (endTest f o s).pins = s.pins ∧
    (endTest f o s).now = s.now ∧ (endTest f o s).events = s.events ∧ (endTest f o s).pending = s.pending := by simp [endTest]

/-- What `becomeStopping` leaves alone. -/
@[simp] theorem becomeStopping_keeps (f : Fin 4) (s : State) :
    (becomeStopping f s).ksu = s.ksu ∧ (becomeStopping f s).chords = s.chords ∧ (becomeStopping f s).session = s.session ∧
    (becomeStopping f s).journal = s.journal ∧ (becomeStopping f s).memory = s.memory ∧ (becomeStopping f s).dict = s.dict ∧
    (becomeStopping f s).trans = s.trans ∧ (becomeStopping f s).lines = s.lines ∧ (becomeStopping f s).cls = s.cls ∧
    (becomeStopping f s).marks = s.marks ∧ (becomeStopping f s).pins = s.pins ∧ (becomeStopping f s).now = s.now ∧
    (becomeStopping f s).events = s.events ∧ (becomeStopping f s).pending = s.pending := by simp [becomeStopping]

/-- What `disabled` leaves alone. -/
@[simp] theorem disabled_keeps (f : Fin 4) (s : State) :
    (disabled f s).ksu = s.ksu ∧ (disabled f s).chords = s.chords ∧ (disabled f s).session = s.session ∧
    (disabled f s).journal = s.journal ∧ (disabled f s).memory = s.memory ∧ (disabled f s).dict = s.dict ∧
    (disabled f s).trans = s.trans ∧ (disabled f s).cls = s.cls ∧ (disabled f s).marks = s.marks ∧ (disabled f s).pins = s.pins ∧
    (disabled f s).now = s.now ∧ (disabled f s).events = s.events ∧ (disabled f s).pending = s.pending := by
  unfold disabled
  try dsimp only
  repeat' split
  all_goals simp

/-- What `enabled` leaves alone. -/
@[simp] theorem enabled_keeps (f : Fin 4) (s : State) :
    (enabled f s).ksu = s.ksu ∧ (enabled f s).chords = s.chords ∧ (enabled f s).session = s.session ∧ (enabled f s).journal = s.journal ∧
    (enabled f s).memory = s.memory ∧ (enabled f s).dict = s.dict ∧ (enabled f s).trans = s.trans ∧ (enabled f s).lines = s.lines ∧
    (enabled f s).cls = s.cls ∧ (enabled f s).marks = s.marks ∧ (enabled f s).pins = s.pins ∧ (enabled f s).now = s.now ∧
    (enabled f s).events = s.events ∧ (enabled f s).pending = s.pending := by simp [enabled]

/-- What `beginTest` leaves alone. -/
@[simp] theorem beginTest_keeps (f : Fin 4) (n : Nat) (s : State) :
    (beginTest f n s).ksu = s.ksu ∧ (beginTest f n s).chords = s.chords ∧ (beginTest f n s).session = s.session ∧
    (beginTest f n s).journal = s.journal ∧ (beginTest f n s).memory = s.memory ∧ (beginTest f n s).dict = s.dict ∧
    (beginTest f n s).trans = s.trans ∧ (beginTest f n s).lines = s.lines ∧ (beginTest f n s).cls = s.cls ∧
    (beginTest f n s).marks = s.marks ∧ (beginTest f n s).pins = s.pins ∧ (beginTest f n s).now = s.now ∧
    (beginTest f n s).events = s.events ∧ (beginTest f n s).pending = s.pending := by simp [beginTest]

/-- What `rdyAsserted` leaves alone. -/
@[simp] theorem rdyAsserted_keeps (f : Fin 4) (s : State) :
    (rdyAsserted f s).ksu = s.ksu ∧ (rdyAsserted f s).chords = s.chords ∧ (rdyAsserted f s).session = s.session ∧
    (rdyAsserted f s).journal = s.journal ∧ (rdyAsserted f s).memory = s.memory ∧ (rdyAsserted f s).dict = s.dict ∧
    (rdyAsserted f s).trans = s.trans ∧ (rdyAsserted f s).cls = s.cls ∧ (rdyAsserted f s).marks = s.marks ∧
    (rdyAsserted f s).pins = s.pins ∧ (rdyAsserted f s).now = s.now ∧ (rdyAsserted f s).events = s.events ∧
    (rdyAsserted f s).pending = s.pending := by
  unfold rdyAsserted
  dsimp only
  split <;> simp

/-- What `setHold` leaves alone. -/
@[simp] theorem setHold_keeps (on : Bool) (f : Fin 4) (s : State) :
    (setHold on s f).ksu = s.ksu ∧ (setHold on s f).chords = s.chords ∧ (setHold on s f).session = s.session ∧
    (setHold on s f).journal = s.journal ∧ (setHold on s f).memory = s.memory ∧ (setHold on s f).dict = s.dict ∧
    (setHold on s f).trans = s.trans ∧ (setHold on s f).cls = s.cls ∧ (setHold on s f).marks = s.marks ∧ (setHold on s f).pins = s.pins ∧
    (setHold on s f).now = s.now ∧ (setHold on s f).events = s.events ∧ (setHold on s f).pending = s.pending := by
  unfold setHold
  try dsimp only
  repeat' split
  all_goals simp

/-- What `tellOwners` leaves alone. -/
@[simp] theorem tellOwners_keeps (p : Mark → Bool) (ms : List Mark) (s : State) :
    (tellOwners p ms s).ksu = s.ksu ∧ (tellOwners p ms s).chords = s.chords ∧ (tellOwners p ms s).session = s.session ∧
    (tellOwners p ms s).journal = s.journal ∧ (tellOwners p ms s).memory = s.memory ∧ (tellOwners p ms s).dict = s.dict ∧
    (tellOwners p ms s).trans = s.trans ∧ (tellOwners p ms s).lines = s.lines ∧ (tellOwners p ms s).cls = s.cls ∧
    (tellOwners p ms s).feeds = s.feeds ∧ (tellOwners p ms s).marks = s.marks ∧ (tellOwners p ms s).pins = s.pins ∧
    (tellOwners p ms s).now = s.now ∧ (tellOwners p ms s).events = s.events ∧ (tellOwners p ms s).pending = s.pending := by
  unfold tellOwners
  dsimp only
  repeat' split
  all_goals simp

/-- What `reviseMarks` leaves alone. -/
@[simp] theorem reviseMarks_keeps (n : Nat) (s : State) :
    (reviseMarks n s).ksu = s.ksu ∧ (reviseMarks n s).chords = s.chords ∧ (reviseMarks n s).session = s.session ∧
    (reviseMarks n s).journal = s.journal ∧ (reviseMarks n s).memory = s.memory ∧ (reviseMarks n s).dict = s.dict ∧
    (reviseMarks n s).trans = s.trans ∧ (reviseMarks n s).lines = s.lines ∧ (reviseMarks n s).cls = s.cls ∧
    (reviseMarks n s).feeds = s.feeds ∧ (reviseMarks n s).pins = s.pins ∧ (reviseMarks n s).now = s.now ∧
    (reviseMarks n s).events = s.events ∧ (reviseMarks n s).pending = s.pending := by simp [reviseMarks]

/-- What `detachMarks` leaves alone. -/
@[simp] theorem detachMarks_keeps (n : Nat) (s : State) :
    (detachMarks n s).ksu = s.ksu ∧ (detachMarks n s).chords = s.chords ∧ (detachMarks n s).session = s.session ∧
    (detachMarks n s).journal = s.journal ∧ (detachMarks n s).memory = s.memory ∧ (detachMarks n s).dict = s.dict ∧
    (detachMarks n s).trans = s.trans ∧ (detachMarks n s).lines = s.lines ∧ (detachMarks n s).cls = s.cls ∧
    (detachMarks n s).feeds = s.feeds ∧ (detachMarks n s).pins = s.pins ∧ (detachMarks n s).now = s.now ∧
    (detachMarks n s).events = s.events ∧ (detachMarks n s).pending = s.pending := by simp [detachMarks]

/-- What `settleLines` leaves alone. -/
@[simp] theorem settleLines_keeps (ns : List Nat) (s : State) :
    (settleLines ns s).ksu = s.ksu ∧ (settleLines ns s).chords = s.chords ∧ (settleLines ns s).session = s.session ∧
    (settleLines ns s).journal = s.journal ∧ (settleLines ns s).memory = s.memory ∧ (settleLines ns s).dict = s.dict ∧
    (settleLines ns s).trans = s.trans ∧ (settleLines ns s).cls = s.cls ∧ (settleLines ns s).feeds = s.feeds ∧
    (settleLines ns s).marks = s.marks ∧ (settleLines ns s).reporter = s.reporter ∧ (settleLines ns s).bench = s.bench ∧
    (settleLines ns s).pins = s.pins ∧ (settleLines ns s).now = s.now ∧ (settleLines ns s).events = s.events ∧
    (settleLines ns s).pending = s.pending := by simp [settleLines]

/-- What `settleCheck` leaves alone. -/
@[simp] theorem settleCheck_keeps (s : State) :
    (settleCheck s).1.ksu = s.ksu ∧ (settleCheck s).1.chords = s.chords ∧ (settleCheck s).1.session = s.session ∧
    (settleCheck s).1.journal = s.journal ∧ (settleCheck s).1.memory = s.memory ∧ (settleCheck s).1.dict = s.dict ∧
    (settleCheck s).1.trans = s.trans ∧ (settleCheck s).1.cls = s.cls ∧ (settleCheck s).1.feeds = s.feeds ∧
    (settleCheck s).1.marks = s.marks ∧ (settleCheck s).1.reporter = s.reporter ∧ (settleCheck s).1.bench = s.bench ∧
    (settleCheck s).1.pins = s.pins ∧ (settleCheck s).1.now = s.now ∧ (settleCheck s).1.events = s.events ∧
    (settleCheck s).1.pending = s.pending := by simp [settleCheck]

/-- What `closeOpen` leaves alone. -/
@[simp] theorem closeOpen_keeps (s : State) :
    (closeOpen s).1.ksu = s.ksu ∧ (closeOpen s).1.chords = s.chords ∧ (closeOpen s).1.session = s.session ∧
    (closeOpen s).1.journal = s.journal ∧ (closeOpen s).1.memory = s.memory ∧ (closeOpen s).1.dict = s.dict ∧
    (closeOpen s).1.trans = s.trans ∧ (closeOpen s).1.cls = s.cls ∧ (closeOpen s).1.feeds = s.feeds ∧ (closeOpen s).1.marks = s.marks ∧
    (closeOpen s).1.reporter = s.reporter ∧ (closeOpen s).1.bench = s.bench ∧ (closeOpen s).1.pins = s.pins ∧
    (closeOpen s).1.now = s.now ∧ (closeOpen s).1.events = s.events ∧ (closeOpen s).1.pending = s.pending := by
  unfold closeOpen
  split <;> simp

/-- What `settleAll` leaves alone. -/
@[simp] theorem settleAll_keeps (s : State) :
    (settleAll s).1.ksu = s.ksu ∧ (settleAll s).1.chords = s.chords ∧ (settleAll s).1.session = s.session ∧
    (settleAll s).1.journal = s.journal ∧ (settleAll s).1.memory = s.memory ∧ (settleAll s).1.dict = s.dict ∧
    (settleAll s).1.trans = s.trans ∧ (settleAll s).1.cls = s.cls ∧ (settleAll s).1.feeds = s.feeds ∧ (settleAll s).1.marks = s.marks ∧
    (settleAll s).1.reporter = s.reporter ∧ (settleAll s).1.bench = s.bench ∧ (settleAll s).1.pins = s.pins ∧
    (settleAll s).1.now = s.now ∧ (settleAll s).1.events = s.events ∧ (settleAll s).1.pending = s.pending := by simp [settleAll]

/-- What `reclaim` leaves alone. -/
@[simp] theorem reclaim_keeps (s : State) :
    (reclaim s).ksu = s.ksu ∧ (reclaim s).chords = s.chords ∧ (reclaim s).session = s.session ∧ (reclaim s).journal = s.journal ∧
    (reclaim s).memory = s.memory ∧ (reclaim s).dict = s.dict ∧ (reclaim s).trans = s.trans ∧ (reclaim s).cls = s.cls ∧
    (reclaim s).pins = s.pins ∧ (reclaim s).now = s.now ∧ (reclaim s).events = s.events ∧ (reclaim s).pending = s.pending := by
  unfold reclaim
  try dsimp only
  repeat' split
  all_goals simp

/-- What `openNew` leaves alone. -/
@[simp] theorem openNew_keeps (c : Cls) (s : State) :
    (openNew c s).ksu = s.ksu ∧ (openNew c s).chords = s.chords ∧ (openNew c s).session = s.session ∧ (openNew c s).journal = s.journal ∧
    (openNew c s).memory = s.memory ∧ (openNew c s).dict = s.dict ∧ (openNew c s).trans = s.trans ∧ (openNew c s).cls = s.cls ∧
    (openNew c s).pins = s.pins ∧ (openNew c s).now = s.now ∧ (openNew c s).events = s.events ∧ (openNew c s).pending = s.pending := by
  unfold openNew
  dsimp only
  split <;> simp

/-- What `withdrawLines` leaves alone. -/
@[simp] theorem withdrawLines_keeps (p : Nat → Bool) (s : State) :
    (withdrawLines p s).ksu = s.ksu ∧ (withdrawLines p s).chords = s.chords ∧ (withdrawLines p s).session = s.session ∧
    (withdrawLines p s).journal = s.journal ∧ (withdrawLines p s).memory = s.memory ∧ (withdrawLines p s).dict = s.dict ∧
    (withdrawLines p s).trans = s.trans ∧ (withdrawLines p s).cls = s.cls ∧ (withdrawLines p s).marks = s.marks ∧
    (withdrawLines p s).reporter = s.reporter ∧ (withdrawLines p s).bench = s.bench ∧ (withdrawLines p s).pins = s.pins ∧
    (withdrawLines p s).now = s.now ∧ (withdrawLines p s).events = s.events ∧ (withdrawLines p s).pending = s.pending := by
  unfold withdrawLines
  try dsimp only
  repeat' split
  all_goals simp

/-- What `retractInside` leaves alone. -/
@[simp] theorem retractInside_keeps (p : Placement) (s : State) :
    (retractInside p s).ksu = s.ksu ∧ (retractInside p s).chords = s.chords ∧ (retractInside p s).session = s.session ∧
    (retractInside p s).journal = s.journal ∧ (retractInside p s).memory = s.memory ∧ (retractInside p s).dict = s.dict ∧
    (retractInside p s).trans = s.trans ∧ (retractInside p s).cls = s.cls ∧ (retractInside p s).marks = s.marks ∧
    (retractInside p s).reporter = s.reporter ∧ (retractInside p s).bench = s.bench ∧ (retractInside p s).pins = s.pins ∧
    (retractInside p s).now = s.now ∧ (retractInside p s).events = s.events ∧ (retractInside p s).pending = s.pending := by simp [retractInside]

/-- What `retractWhole` leaves alone. -/
@[simp] theorem retractWhole_keeps (p : Placement) (s : State) :
    (retractWhole p s).ksu = s.ksu ∧ (retractWhole p s).chords = s.chords ∧ (retractWhole p s).session = s.session ∧
    (retractWhole p s).journal = s.journal ∧ (retractWhole p s).memory = s.memory ∧ (retractWhole p s).dict = s.dict ∧
    (retractWhole p s).trans = s.trans ∧ (retractWhole p s).cls = s.cls ∧ (retractWhole p s).marks = s.marks ∧
    (retractWhole p s).reporter = s.reporter ∧ (retractWhole p s).bench = s.bench ∧ (retractWhole p s).pins = s.pins ∧
    (retractWhole p s).now = s.now ∧ (retractWhole p s).events = s.events ∧ (retractWhole p s).pending = s.pending := by
  unfold retractWhole
  dsimp only
  repeat' split
  all_goals simp

/-- What `retract` leaves alone. -/
@[simp] theorem retract_keeps (p : Placement) (s : State) :
    (retract p s).ksu = s.ksu ∧ (retract p s).chords = s.chords ∧ (retract p s).session = s.session ∧ (retract p s).journal = s.journal ∧
    (retract p s).memory = s.memory ∧ (retract p s).dict = s.dict ∧ (retract p s).trans = s.trans ∧ (retract p s).cls = s.cls ∧
    (retract p s).marks = s.marks ∧ (retract p s).reporter = s.reporter ∧ (retract p s).bench = s.bench ∧ (retract p s).pins = s.pins ∧
    (retract p s).now = s.now ∧ (retract p s).events = s.events ∧ (retract p s).pending = s.pending := by
  unfold retract
  try dsimp only
  repeat' split
  all_goals simp

/-- What `layChars` leaves alone. -/
@[simp] theorem layChars_keeps (r : PlaceReq) (cs : List Byte) (y : Laying) :
    (layChars r cs y).s.ksu = y.s.ksu ∧ (layChars r cs y).s.chords = y.s.chords ∧ (layChars r cs y).s.session = y.s.session ∧
    (layChars r cs y).s.journal = y.s.journal ∧ (layChars r cs y).s.memory = y.s.memory ∧ (layChars r cs y).s.dict = y.s.dict ∧
    (layChars r cs y).s.trans = y.s.trans ∧ (layChars r cs y).s.cls = y.s.cls ∧ (layChars r cs y).s.pins = y.s.pins ∧
    (layChars r cs y).s.now = y.s.now ∧ (layChars r cs y).s.events = y.s.events ∧ (layChars r cs y).s.pending = y.s.pending := by
  unfold layChars
  try dsimp only
  repeat' split
  all_goals simp

/-- What `layOpen` leaves alone. -/
@[simp] theorem layOpen_keeps (r : PlaceReq) (o : Opening) (y : Laying) :
    (layOpen r o y).s.ksu = y.s.ksu ∧ (layOpen r o y).s.chords = y.s.chords ∧ (layOpen r o y).s.session = y.s.session ∧
    (layOpen r o y).s.journal = y.s.journal ∧ (layOpen r o y).s.memory = y.s.memory ∧ (layOpen r o y).s.dict = y.s.dict ∧
    (layOpen r o y).s.trans = y.s.trans ∧ (layOpen r o y).s.cls = y.s.cls ∧ (layOpen r o y).s.pins = y.s.pins ∧
    (layOpen r o y).s.now = y.s.now ∧ (layOpen r o y).s.events = y.s.events ∧ (layOpen r o y).s.pending = y.s.pending := by
  unfold layOpen
  try dsimp only
  repeat' split
  all_goals simp

/-- What `layWrap` leaves alone. -/
@[simp] theorem layWrap_keeps (r : PlaceReq) (y : Laying) :
    (layWrap r y).s.ksu = y.s.ksu ∧ (layWrap r y).s.chords = y.s.chords ∧ (layWrap r y).s.session = y.s.session ∧
    (layWrap r y).s.journal = y.s.journal ∧ (layWrap r y).s.memory = y.s.memory ∧ (layWrap r y).s.dict = y.s.dict ∧
    (layWrap r y).s.trans = y.s.trans ∧ (layWrap r y).s.cls = y.s.cls ∧ (layWrap r y).s.pins = y.s.pins ∧ (layWrap r y).s.now = y.s.now ∧
    (layWrap r y).s.events = y.s.events ∧ (layWrap r y).s.pending = y.s.pending := by simp [layWrap]

/-- What `layWord` leaves alone. -/
@[simp] theorem layWord_keeps (r : PlaceReq) (n : Nat) (w : List Byte) (y : Laying) :
    (layWord r n w y).s.ksu = y.s.ksu ∧ (layWord r n w y).s.chords = y.s.chords ∧ (layWord r n w y).s.session = y.s.session ∧
    (layWord r n w y).s.journal = y.s.journal ∧ (layWord r n w y).s.memory = y.s.memory ∧ (layWord r n w y).s.dict = y.s.dict ∧
    (layWord r n w y).s.trans = y.s.trans ∧ (layWord r n w y).s.cls = y.s.cls ∧ (layWord r n w y).s.pins = y.s.pins ∧
    (layWord r n w y).s.now = y.s.now ∧ (layWord r n w y).s.events = y.s.events ∧ (layWord r n w y).s.pending = y.s.pending := by
  induction n generalizing w y with
  | zero => simp [layWord]
  | succ n ih =>
    simp only [layWord]
    repeat' split
    all_goals simp [ih]

/-- What `layInLine` leaves alone. -/
@[simp] theorem layInLine_keeps (r : PlaceReq) (t : Token) (y : Laying) :
    (layInLine r t y).s.ksu = y.s.ksu ∧ (layInLine r t y).s.chords = y.s.chords ∧ (layInLine r t y).s.session = y.s.session ∧
    (layInLine r t y).s.journal = y.s.journal ∧ (layInLine r t y).s.memory = y.s.memory ∧ (layInLine r t y).s.dict = y.s.dict ∧
    (layInLine r t y).s.trans = y.s.trans ∧ (layInLine r t y).s.cls = y.s.cls ∧ (layInLine r t y).s.pins = y.s.pins ∧
    (layInLine r t y).s.now = y.s.now ∧ (layInLine r t y).s.events = y.s.events ∧ (layInLine r t y).s.pending = y.s.pending := by
  unfold layInLine
  dsimp only
  repeat' split
  all_goals simp

/-- What `layToken` leaves alone. -/
@[simp] theorem layToken_keeps (r : PlaceReq) (t : Token) (y : Laying) :
    (layToken r y t).s.ksu = y.s.ksu ∧ (layToken r y t).s.chords = y.s.chords ∧ (layToken r y t).s.session = y.s.session ∧
    (layToken r y t).s.journal = y.s.journal ∧ (layToken r y t).s.memory = y.s.memory ∧ (layToken r y t).s.dict = y.s.dict ∧
    (layToken r y t).s.trans = y.s.trans ∧ (layToken r y t).s.cls = y.s.cls ∧ (layToken r y t).s.pins = y.s.pins ∧
    (layToken r y t).s.now = y.s.now ∧ (layToken r y t).s.events = y.s.events ∧ (layToken r y t).s.pending = y.s.pending := by
  unfold layToken
  dsimp only
  repeat' split
  all_goals simp

/-- What `layTokens` leaves alone. -/
@[simp] theorem layTokens_keeps (r : PlaceReq) (ts : List Token) (y : Laying) :
    (ts.foldl (layToken r) y).s.ksu = y.s.ksu ∧ (ts.foldl (layToken r) y).s.chords = y.s.chords ∧
    (ts.foldl (layToken r) y).s.session = y.s.session ∧ (ts.foldl (layToken r) y).s.journal = y.s.journal ∧
    (ts.foldl (layToken r) y).s.memory = y.s.memory ∧ (ts.foldl (layToken r) y).s.dict = y.s.dict ∧
    (ts.foldl (layToken r) y).s.trans = y.s.trans ∧ (ts.foldl (layToken r) y).s.cls = y.s.cls ∧
    (ts.foldl (layToken r) y).s.pins = y.s.pins ∧ (ts.foldl (layToken r) y).s.now = y.s.now ∧
    (ts.foldl (layToken r) y).s.events = y.s.events ∧ (ts.foldl (layToken r) y).s.pending = y.s.pending := by
  induction ts generalizing y with
  | nil => simp
  | cons t ts ih => simp [ih]

/-- What `closeOtherClass` leaves alone. -/
@[simp] theorem closeOtherClass_keeps (c : Cls) (s : State) :
    (closeOtherClass c s).1.ksu = s.ksu ∧ (closeOtherClass c s).1.chords = s.chords ∧ (closeOtherClass c s).1.session = s.session ∧
    (closeOtherClass c s).1.journal = s.journal ∧ (closeOtherClass c s).1.memory = s.memory ∧ (closeOtherClass c s).1.dict = s.dict ∧
    (closeOtherClass c s).1.trans = s.trans ∧ (closeOtherClass c s).1.cls = s.cls ∧ (closeOtherClass c s).1.feeds = s.feeds ∧
    (closeOtherClass c s).1.marks = s.marks ∧ (closeOtherClass c s).1.reporter = s.reporter ∧ (closeOtherClass c s).1.bench = s.bench ∧
    (closeOtherClass c s).1.pins = s.pins ∧ (closeOtherClass c s).1.now = s.now ∧ (closeOtherClass c s).1.events = s.events ∧
    (closeOtherClass c s).1.pending = s.pending := by
  unfold closeOtherClass
  try dsimp only
  repeat' split
  all_goals simp

/-- What `place` leaves alone. -/
@[simp] theorem place_keeps (r : PlaceReq) (s : State) :
    (place r s).s.ksu = s.ksu ∧ (place r s).s.chords = s.chords ∧ (place r s).s.session = s.session ∧ (place r s).s.journal = s.journal ∧
    (place r s).s.memory = s.memory ∧ (place r s).s.dict = s.dict ∧ (place r s).s.trans = s.trans ∧ (place r s).s.cls = s.cls ∧
    (place r s).s.pins = s.pins ∧ (place r s).s.now = s.now ∧ (place r s).s.events = s.events ∧ (place r s).s.pending = s.pending := by
  unfold place
  dsimp only
  simp only [layTokens_keeps, closeOtherClass_keeps]
  split <;> simp

/-- What `placeEmpty` leaves alone. -/
@[simp] theorem placeEmpty_keeps (b : Bool) (s : State) :
    (placeEmpty b s).s.ksu = s.ksu ∧ (placeEmpty b s).s.chords = s.chords ∧ (placeEmpty b s).s.session = s.session ∧
    (placeEmpty b s).s.journal = s.journal ∧ (placeEmpty b s).s.memory = s.memory ∧ (placeEmpty b s).s.dict = s.dict ∧
    (placeEmpty b s).s.trans = s.trans ∧ (placeEmpty b s).s.cls = s.cls ∧ (placeEmpty b s).s.feeds = s.feeds ∧
    (placeEmpty b s).s.marks = s.marks ∧ (placeEmpty b s).s.reporter = s.reporter ∧ (placeEmpty b s).s.bench = s.bench ∧
    (placeEmpty b s).s.pins = s.pins ∧ (placeEmpty b s).s.now = s.now ∧ (placeEmpty b s).s.events = s.events ∧
    (placeEmpty b s).s.pending = s.pending := by
  unfold placeEmpty
  dsimp only
  split <;> simp

/-- What `takeSettled` leaves alone. -/
@[simp] theorem takeSettled_keeps (ns : List Nat) (s : State) :
    (takeSettled ns s).ksu = s.ksu ∧ (takeSettled ns s).chords = s.chords ∧ (takeSettled ns s).session = s.session ∧
    (takeSettled ns s).journal = s.journal ∧ (takeSettled ns s).memory = s.memory ∧ (takeSettled ns s).dict = s.dict ∧
    (takeSettled ns s).lines = s.lines ∧ (takeSettled ns s).cls = s.cls ∧ (takeSettled ns s).feeds = s.feeds ∧
    (takeSettled ns s).marks = s.marks ∧ (takeSettled ns s).reporter = s.reporter ∧ (takeSettled ns s).bench = s.bench ∧
    (takeSettled ns s).pins = s.pins ∧ (takeSettled ns s).now = s.now ∧ (takeSettled ns s).events = s.events ∧
    (takeSettled ns s).pending = s.pending := by simp [takeSettled]

/-- What `placeFormed` leaves alone. -/
@[simp] theorem placeFormed_keeps (u : Formed) (s : State) :
    (placeFormed u s).s.ksu = s.ksu ∧ (placeFormed u s).s.chords = s.chords ∧ (placeFormed u s).s.session = s.session ∧
    (placeFormed u s).s.journal = s.journal ∧ (placeFormed u s).s.memory = s.memory ∧ (placeFormed u s).s.dict = s.dict ∧
    (placeFormed u s).s.trans = s.trans ∧ (placeFormed u s).s.cls = s.cls ∧ (placeFormed u s).s.pins = s.pins ∧
    (placeFormed u s).s.now = s.now ∧ (placeFormed u s).s.events = s.events ∧ (placeFormed u s).s.pending = s.pending := by
  unfold placeFormed
  try dsimp only
  repeat' split
  all_goals simp

/-- What `placeUnit` leaves alone. -/
@[simp] theorem placeUnit_keeps (k : Bool) (u : Formed) (s : State) :
    (placeUnit k u s).ksu = s.ksu ∧ (placeUnit k u s).chords = s.chords ∧ (placeUnit k u s).session = s.session ∧
    (placeUnit k u s).journal = s.journal ∧ (placeUnit k u s).memory = s.memory ∧ (placeUnit k u s).dict = s.dict ∧
    (placeUnit k u s).cls = s.cls ∧ (placeUnit k u s).pins = s.pins ∧ (placeUnit k u s).now = s.now ∧
    (placeUnit k u s).events = s.events ∧ (placeUnit k u s).pending = s.pending := by simp [placeUnit]

/-- What `pass` leaves alone. -/
@[simp] theorem pass_keeps (fl k : Bool) (n : Nat) (s : State) :
    (pass fl k n s).ksu = s.ksu ∧ (pass fl k n s).chords = s.chords ∧ (pass fl k n s).session = s.session ∧
    (pass fl k n s).journal = s.journal ∧ (pass fl k n s).memory = s.memory ∧ (pass fl k n s).dict = s.dict ∧
    (pass fl k n s).cls = s.cls ∧ (pass fl k n s).pins = s.pins ∧ (pass fl k n s).now = s.now ∧ (pass fl k n s).events = s.events ∧
    (pass fl k n s).pending = s.pending := by
  induction n generalizing s with
  | zero => simp [pass]
  | succ n ih =>
    simp only [pass]
    repeat' split
    all_goals simp [ih]

/-- What `resolvePass` leaves alone. -/
@[simp] theorem resolvePass_keeps (s : State) :
    (resolvePass s).ksu = s.ksu ∧ (resolvePass s).chords = s.chords ∧ (resolvePass s).session = s.session ∧
    (resolvePass s).journal = s.journal ∧ (resolvePass s).memory = s.memory ∧ (resolvePass s).dict = s.dict ∧
    (resolvePass s).cls = s.cls ∧ (resolvePass s).pins = s.pins ∧ (resolvePass s).now = s.now ∧ (resolvePass s).events = s.events ∧
    (resolvePass s).pending = s.pending := by simp [resolvePass]

/-- What `flushPass` leaves alone. -/
@[simp] theorem flushPass_keeps (s : State) :
    (flushPass s).ksu = s.ksu ∧ (flushPass s).chords = s.chords ∧ (flushPass s).session = s.session ∧ (flushPass s).journal = s.journal ∧
    (flushPass s).memory = s.memory ∧ (flushPass s).dict = s.dict ∧ (flushPass s).cls = s.cls ∧ (flushPass s).pins = s.pins ∧
    (flushPass s).now = s.now ∧ (flushPass s).events = s.events ∧ (flushPass s).pending = s.pending := by simp [flushPass]

/-- What `setTimer` leaves alone. -/
@[simp] theorem setTimer_keeps (b : List TStroke) (s : State) :
    (setTimer b s).ksu = s.ksu ∧ (setTimer b s).chords = s.chords ∧ (setTimer b s).session = s.session ∧
    (setTimer b s).journal = s.journal ∧ (setTimer b s).memory = s.memory ∧ (setTimer b s).dict = s.dict ∧
    (setTimer b s).lines = s.lines ∧ (setTimer b s).cls = s.cls ∧ (setTimer b s).feeds = s.feeds ∧ (setTimer b s).marks = s.marks ∧
    (setTimer b s).reporter = s.reporter ∧ (setTimer b s).bench = s.bench ∧ (setTimer b s).pins = s.pins ∧ (setTimer b s).now = s.now ∧
    (setTimer b s).events = s.events ∧ (setTimer b s).pending = s.pending := by
  unfold setTimer
  try dsimp only
  repeat' split
  all_goals simp

/-- What `stopTimer` leaves alone. -/
@[simp] theorem stopTimer_keeps (s : State) :
    (stopTimer s).ksu = s.ksu ∧ (stopTimer s).chords = s.chords ∧ (stopTimer s).session = s.session ∧ (stopTimer s).journal = s.journal ∧
    (stopTimer s).memory = s.memory ∧ (stopTimer s).dict = s.dict ∧ (stopTimer s).lines = s.lines ∧ (stopTimer s).cls = s.cls ∧
    (stopTimer s).feeds = s.feeds ∧ (stopTimer s).marks = s.marks ∧ (stopTimer s).reporter = s.reporter ∧ (stopTimer s).bench = s.bench ∧
    (stopTimer s).pins = s.pins ∧ (stopTimer s).now = s.now ∧ (stopTimer s).events = s.events ∧ (stopTimer s).pending = s.pending := by simp [stopTimer]

/-- What `flushComplete` leaves alone. -/
@[simp] theorem flushComplete_keeps (s : State) :
    (flushComplete s).ksu = s.ksu ∧ (flushComplete s).chords = s.chords ∧ (flushComplete s).session = s.session ∧
    (flushComplete s).journal = s.journal ∧ (flushComplete s).memory = s.memory ∧ (flushComplete s).dict = s.dict ∧
    (flushComplete s).cls = s.cls ∧ (flushComplete s).feeds = s.feeds ∧ (flushComplete s).marks = s.marks ∧
    (flushComplete s).reporter = s.reporter ∧ (flushComplete s).bench = s.bench ∧ (flushComplete s).pins = s.pins ∧
    (flushComplete s).now = s.now ∧ (flushComplete s).events = s.events ∧ (flushComplete s).pending = s.pending := by simp [flushComplete]

/-- What `takeOrdinary` leaves alone. -/
@[simp] theorem takeOrdinary_keeps (k : Stroke) (s : State) :
    (takeOrdinary k s).ksu = s.ksu ∧ (takeOrdinary k s).chords = s.chords ∧ (takeOrdinary k s).session = s.session ∧
    (takeOrdinary k s).journal = s.journal ∧ (takeOrdinary k s).memory = s.memory ∧ (takeOrdinary k s).dict = s.dict ∧
    (takeOrdinary k s).cls = s.cls ∧ (takeOrdinary k s).pins = s.pins ∧ (takeOrdinary k s).now = s.now ∧
    (takeOrdinary k s).events = s.events ∧ (takeOrdinary k s).pending = s.pending := by simp [takeOrdinary]

/-- What `takeLateStroke` leaves alone. -/
@[simp] theorem takeLateStroke_keeps (k : Stroke) (s : State) :
    (takeLateStroke k s).ksu = s.ksu ∧ (takeLateStroke k s).chords = s.chords ∧ (takeLateStroke k s).session = s.session ∧
    (takeLateStroke k s).journal = s.journal ∧ (takeLateStroke k s).memory = s.memory ∧ (takeLateStroke k s).dict = s.dict ∧
    (takeLateStroke k s).cls = s.cls ∧ (takeLateStroke k s).pins = s.pins ∧ (takeLateStroke k s).now = s.now ∧
    (takeLateStroke k s).events = s.events ∧ (takeLateStroke k s).pending = s.pending := by simp [takeLateStroke]

/-- What `dropNewest` leaves alone. -/
@[simp] theorem dropNewest_keeps (s : State) :
    (dropNewest s).ksu = s.ksu ∧ (dropNewest s).chords = s.chords ∧ (dropNewest s).session = s.session ∧
    (dropNewest s).journal = s.journal ∧ (dropNewest s).memory = s.memory ∧ (dropNewest s).dict = s.dict ∧ (dropNewest s).cls = s.cls ∧
    (dropNewest s).pins = s.pins ∧ (dropNewest s).now = s.now ∧ (dropNewest s).events = s.events ∧ (dropNewest s).pending = s.pending := by simp [dropNewest]

/-- What `retractUnit` leaves alone. -/
@[simp] theorem retractUnit_keeps (u : TUnit) (s : State) :
    (retractUnit u s).ksu = s.ksu ∧ (retractUnit u s).chords = s.chords ∧ (retractUnit u s).session = s.session ∧
    (retractUnit u s).journal = s.journal ∧ (retractUnit u s).memory = s.memory ∧ (retractUnit u s).dict = s.dict ∧
    (retractUnit u s).cls = s.cls ∧ (retractUnit u s).pins = s.pins ∧ (retractUnit u s).now = s.now ∧
    (retractUnit u s).events = s.events ∧ (retractUnit u s).pending = s.pending := by
  unfold retractUnit
  dsimp only
  split <;> simp

/-- What `takeCorrection` leaves alone. -/
@[simp] theorem takeCorrection_keeps (s : State) :
    (takeCorrection s).ksu = s.ksu ∧ (takeCorrection s).chords = s.chords ∧ (takeCorrection s).session = s.session ∧
    (takeCorrection s).journal = s.journal ∧ (takeCorrection s).memory = s.memory ∧ (takeCorrection s).dict = s.dict ∧
    (takeCorrection s).cls = s.cls ∧ (takeCorrection s).pins = s.pins ∧ (takeCorrection s).now = s.now ∧
    (takeCorrection s).events = s.events ∧ (takeCorrection s).pending = s.pending := by
  unfold takeCorrection
  try dsimp only
  repeat' split
  all_goals simp

/-- What `takeStroke` leaves alone. -/
@[simp] theorem takeStroke_keeps (k : Stroke) (s : State) :
    (takeStroke k s).ksu = s.ksu ∧ (takeStroke k s).chords = s.chords ∧ (takeStroke k s).session = s.session ∧
    (takeStroke k s).journal = s.journal ∧ (takeStroke k s).memory = s.memory ∧ (takeStroke k s).dict = s.dict ∧
    (takeStroke k s).cls = s.cls ∧ (takeStroke k s).pins = s.pins ∧ (takeStroke k s).now = s.now ∧ (takeStroke k s).events = s.events ∧
    (takeStroke k s).pending = s.pending := by
  unfold takeStroke
  try dsimp only
  repeat' split
  all_goals simp

/-- What `takeAllHanded` leaves alone. -/
@[simp] theorem takeAllHanded_keeps (n : Nat) (s : State) :
    (takeAllHanded n s).ksu = s.ksu ∧ (takeAllHanded n s).chords = s.chords ∧ (takeAllHanded n s).session = s.session ∧
    (takeAllHanded n s).journal = s.journal ∧ (takeAllHanded n s).memory = s.memory ∧ (takeAllHanded n s).dict = s.dict ∧
    (takeAllHanded n s).cls = s.cls ∧ (takeAllHanded n s).pins = s.pins ∧ (takeAllHanded n s).now = s.now ∧
    (takeAllHanded n s).events = s.events ∧ (takeAllHanded n s).pending = s.pending := by
  induction n generalizing s with
  | zero => simp [takeAllHanded]
  | succ n ih =>
    simp only [takeAllHanded]
    split
    · simp
    · simp [ih]

/-- What `leaveLive` leaves alone. -/
@[simp] theorem leaveLive_keeps (c : Bool) (s : State) :
    (leaveLive c s).ksu = s.ksu ∧ (leaveLive c s).chords = s.chords ∧ (leaveLive c s).session = s.session ∧
    (leaveLive c s).journal = s.journal ∧ (leaveLive c s).memory = s.memory ∧ (leaveLive c s).dict = s.dict ∧
    (leaveLive c s).cls = s.cls ∧ (leaveLive c s).pins = s.pins ∧ (leaveLive c s).now = s.now ∧ (leaveLive c s).events = s.events ∧
    (leaveLive c s).pending = s.pending := by simp [leaveLive]

/-- What `transAtOpen` leaves alone. -/
@[simp] theorem transAtOpen_keeps (s : State) :
    (transAtOpen s).ksu = s.ksu ∧ (transAtOpen s).chords = s.chords ∧ (transAtOpen s).session = s.session ∧
    (transAtOpen s).journal = s.journal ∧ (transAtOpen s).memory = s.memory ∧ (transAtOpen s).dict = s.dict ∧
    (transAtOpen s).lines = s.lines ∧ (transAtOpen s).cls = s.cls ∧ (transAtOpen s).feeds = s.feeds ∧ (transAtOpen s).marks = s.marks ∧
    (transAtOpen s).reporter = s.reporter ∧ (transAtOpen s).bench = s.bench ∧ (transAtOpen s).pins = s.pins ∧
    (transAtOpen s).now = s.now ∧ (transAtOpen s).events = s.events ∧ (transAtOpen s).pending = s.pending := by simp [transAtOpen]

/-- What `discardGroup` leaves alone. -/
@[simp] theorem discardGroup_keeps (s : State) :
    (discardGroup s).ksu = s.ksu ∧ (discardGroup s).chords = s.chords ∧ (discardGroup s).session = s.session ∧
    (discardGroup s).journal = s.journal ∧ (discardGroup s).memory = s.memory ∧ (discardGroup s).trans = s.trans ∧
    (discardGroup s).lines = s.lines ∧ (discardGroup s).cls = s.cls ∧ (discardGroup s).feeds = s.feeds ∧
    (discardGroup s).marks = s.marks ∧ (discardGroup s).pins = s.pins ∧ (discardGroup s).now = s.now ∧
    (discardGroup s).events = s.events ∧ (discardGroup s).pending = s.pending := by
  unfold discardGroup
  try dsimp only
  repeat' split
  all_goals simp

/-- What `losePresence` leaves alone. -/
@[simp] theorem losePresence_keeps (l : Link) (s : State) :
    (losePresence l s).ksu = s.ksu ∧ (losePresence l s).chords = s.chords ∧ (losePresence l s).session = s.session ∧
    (losePresence l s).journal = s.journal ∧ (losePresence l s).memory = s.memory ∧ (losePresence l s).trans = s.trans ∧
    (losePresence l s).lines = s.lines ∧ (losePresence l s).cls = s.cls ∧ (losePresence l s).feeds = s.feeds ∧
    (losePresence l s).marks = s.marks ∧ (losePresence l s).pins = s.pins ∧ (losePresence l s).now = s.now ∧
    (losePresence l s).events = s.events ∧ (losePresence l s).pending = s.pending := by cases l <;> simp [losePresence]

/-- What `cutTransfer` leaves alone. -/
@[simp] theorem cutTransfer_keeps (s : State) :
    (cutTransfer s).ksu = s.ksu ∧ (cutTransfer s).chords = s.chords ∧ (cutTransfer s).session = s.session ∧
    (cutTransfer s).journal = s.journal ∧ (cutTransfer s).dict = s.dict ∧ (cutTransfer s).trans = s.trans ∧
    (cutTransfer s).lines = s.lines ∧ (cutTransfer s).cls = s.cls ∧ (cutTransfer s).feeds = s.feeds ∧ (cutTransfer s).marks = s.marks ∧
    (cutTransfer s).reporter = s.reporter ∧ (cutTransfer s).bench = s.bench ∧ (cutTransfer s).pins = s.pins ∧
    (cutTransfer s).now = s.now ∧ (cutTransfer s).pending = s.pending := by
  unfold cutTransfer
  repeat' split
  all_goals simp

/-- What `newSession` leaves alone. -/
@[simp] theorem newSession_keeps (s : State) :
    (newSession s).ksu = s.ksu ∧ (newSession s).journal = s.journal ∧ (newSession s).memory = s.memory ∧ (newSession s).dict = s.dict ∧
    (newSession s).trans = s.trans ∧ (newSession s).lines = s.lines ∧ (newSession s).cls = s.cls ∧ (newSession s).feeds = s.feeds ∧
    (newSession s).marks = s.marks ∧ (newSession s).reporter = s.reporter ∧ (newSession s).bench = s.bench ∧
    (newSession s).pins = s.pins ∧ (newSession s).now = s.now ∧ (newSession s).events = s.events ∧ (newSession s).pending = s.pending := by simp [newSession]

/-- What `emptyTranscript` leaves alone. -/
@[simp] theorem emptyTranscript_keeps (s : State) :
    (emptyTranscript s).ksu = s.ksu ∧ (emptyTranscript s).chords = s.chords ∧ (emptyTranscript s).session = s.session ∧
    (emptyTranscript s).journal = s.journal ∧ (emptyTranscript s).memory = s.memory ∧ (emptyTranscript s).dict = s.dict ∧
    (emptyTranscript s).trans = s.trans ∧ (emptyTranscript s).cls = s.cls ∧ (emptyTranscript s).pins = s.pins ∧
    (emptyTranscript s).now = s.now ∧ (emptyTranscript s).events = s.events ∧ (emptyTranscript s).pending = s.pending := by simp [emptyTranscript]

/-- What `applyMark` leaves alone. -/
@[simp] theorem applyMark_keeps (m : Mark) (s : State) :
    (applyMark m s).ksu = s.ksu ∧ (applyMark m s).chords = s.chords ∧ (applyMark m s).memory = s.memory ∧ (applyMark m s).dict = s.dict ∧
    (applyMark m s).trans = s.trans ∧ (applyMark m s).lines = s.lines ∧ (applyMark m s).cls = s.cls ∧ (applyMark m s).feeds = s.feeds ∧
    (applyMark m s).pins = s.pins ∧ (applyMark m s).now = s.now ∧ (applyMark m s).events = s.events ∧ (applyMark m s).pending = s.pending := by simp [applyMark]

/-- What `applyUnmark` leaves alone. -/
@[simp] theorem applyUnmark_keeps (l : Link) (m : Mark) (s : State) :
    (applyUnmark l m s).ksu = s.ksu ∧ (applyUnmark l m s).chords = s.chords ∧ (applyUnmark l m s).memory = s.memory ∧
    (applyUnmark l m s).dict = s.dict ∧ (applyUnmark l m s).trans = s.trans ∧ (applyUnmark l m s).lines = s.lines ∧
    (applyUnmark l m s).cls = s.cls ∧ (applyUnmark l m s).feeds = s.feeds ∧ (applyUnmark l m s).pins = s.pins ∧
    (applyUnmark l m s).now = s.now ∧ (applyUnmark l m s).events = s.events ∧ (applyUnmark l m s).pending = s.pending := by simp [applyUnmark]

/-- What `applyEdit` leaves alone. -/
@[simp] theorem applyEdit_keeps (l : Line) (t : List Byte) (s : State) :
    (applyEdit l t s).ksu = s.ksu ∧ (applyEdit l t s).chords = s.chords ∧ (applyEdit l t s).memory = s.memory ∧
    (applyEdit l t s).dict = s.dict ∧ (applyEdit l t s).trans = s.trans ∧ (applyEdit l t s).cls = s.cls ∧
    (applyEdit l t s).pins = s.pins ∧ (applyEdit l t s).now = s.now ∧ (applyEdit l t s).events = s.events ∧
    (applyEdit l t s).pending = s.pending := by
  unfold applyEdit
  dsimp only
  split <;> simp

/-- What `applyGroup` leaves alone. -/
@[simp] theorem applyGroup_keeps (g : List Staged) (s : State) :
    (applyGroup g s).ksu = s.ksu ∧ (applyGroup g s).chords = s.chords ∧ (applyGroup g s).memory = s.memory ∧
    (applyGroup g s).lines = s.lines ∧ (applyGroup g s).cls = s.cls ∧ (applyGroup g s).feeds = s.feeds ∧
    (applyGroup g s).marks = s.marks ∧ (applyGroup g s).pins = s.pins ∧ (applyGroup g s).now = s.now ∧
    (applyGroup g s).events = s.events ∧ (applyGroup g s).pending = s.pending := by simp [applyGroup]

end Sys2Proof.Machine
end

