-- ==== Sys2Proof/Laws/Links.lean ====
section
/-! SUPPORT. The links: what a valid frame's arrival does to presence, what becomes of a request frame, and what posting does to the latch
sets. -/

namespace Sys2Proof.Machine

/-! ## Posting -/

/-- A flag posted is latched. -/
@[simp] theorem latchHolds_latch (n : Notice) (a : BitVec 20) : latchHolds n (latch n a) = true := by
  unfold latchHolds latch
  cases n <;> simp [Notice.bit]

/-- A latched flag stays when another is posted. -/
theorem latchHolds_latch_of (n m : Notice) (a : BitVec 20) (h : latchHolds n a = true) : latchHolds n (latch m a) = true := by
  unfold latchHolds latch at *
  simp [h]

/-- Posting one flag does not latch another. -/
theorem latchHolds_latch_other (n m : Notice) (a : BitVec 20) (h : n ≠ m) : latchHolds n (latch m a) = latchHolds n a := by
  have hb : n.bit ≠ m.bit := by cases n <;> cases m <;> first | exact absurd rfl h | decide
  simp [latchHolds, latch, BitVec.getLsbD_twoPow, hb.symm]

/-- A latch set is contained in the one with a flag more. -/
theorem latch_mono (n : Notice) (a : BitVec 20) : a &&& latch n a = a := by
  apply BitVec.eq_of_getLsbD_eq
  intro i hi
  simp only [latch, BitVec.getLsbD_and, BitVec.getLsbD_or]
  cases a.getLsbD i <;> simp

/-! ## Presence -/

/-- During a request write 0x00 stands on data out in every byte position. -/
@[simp] theorem writeOver_fetched (l : Link) (s : State) : ((writeOver l s).link l).fetched = [] := by
  cases l <;> rfl

/-- A request write leaves everything of its link but the data-out record. -/
theorem writeOver_link (l : Link) (s : State) : (writeOver l s).link l = { s.link l with fetched := [] } := by
  cases l <;> rfl

/-- A request write leaves the other link. -/
@[simp] theorem writeOver_other (l : Link) (s : State) : (writeOver l s).link (otherLink l) = s.link (otherLink l) := by
  cases l <;> rfl

/-- A valid frame's arrival leaves both links' exchange states. -/
@[simp] theorem touchPresence_exch (l l' : Link) (s : State) : ((touchPresence l s).link l').exch = (s.link l').exch := by
  unfold touchPresence
  dsimp only
  repeat' split
  all_goals cases l <;> cases l' <;> simp [writeOver, post, State.link, State.setLink, otherLink]

/-- A valid frame's arrival leaves both discard indications. -/
@[simp] theorem touchPresence_discard (l l' : Link) (s : State) :
    ((touchPresence l s).link l').discard = (s.link l').discard := by
  unfold touchPresence
  dsimp only
  repeat' split
  all_goals cases l <;> cases l' <;> simp [writeOver, post, State.link, State.setLink, otherLink]

/-- A valid frame's arrival leaves both links' latched health codes. -/
@[simp] theorem touchPresence_latched (l l' : Link) (s : State) :
    ((touchPresence l s).link l').latched = (s.link l').latched := by
  unfold touchPresence
  dsimp only
  repeat' split
  all_goals cases l <;> cases l' <;> simp [writeOver, post, State.link, State.setLink, otherLink]

/-- A valid frame's arrival leaves both presence times. -/
@[simp] theorem touchPresence_presenceTime (l l' : Link) (s : State) :
    ((touchPresence l s).link l').presenceTime = (s.link l').presenceTime := by
  unfold touchPresence
  dsimp only
  repeat' split
  all_goals cases l <;> cases l' <;> simp [writeOver, post, State.link, State.setLink, otherLink]

/-- A valid frame's arrival leaves its own link's latch set. -/
@[simp] theorem touchPresence_attn (l : Link) (s : State) : ((touchPresence l s).link l).attn = (s.link l).attn := by
  unfold touchPresence
  dsimp only
  repeat' split
  all_goals cases l <;> simp [writeOver, post, State.link, State.setLink, otherLink]

/-- A valid frame's arrival leaves 0x00 on its link's data out throughout. -/
@[simp] theorem touchPresence_fetched (l : Link) (s : State) : ((touchPresence l s).link l).fetched = [] := by
  unfold touchPresence
  dsimp only
  repeat' split
  all_goals cases l <;> simp [writeOver, post, State.link, State.setLink, otherLink]

/-- Past START a valid frame's arrival makes its link PRESENT with its timer restarted. -/
theorem touchPresence_present (l : Link) (s : State) (h : s.session.st ≠ .start) :
    ((touchPresence l s).link l).present = true ∧
      ((touchPresence l s).link l).timer = some (s.now + (s.link l).presenceTime) := by
  unfold touchPresence
  simp only [h, if_false]
  split
  all_goals cases l <;> simp [writeOver, post, State.link, State.setLink, otherLink]

/-- During START presence is not touched. -/
theorem touchPresence_start (l : Link) (s : State) (h : s.session.st = .start) : touchPresence l s = writeOver l s := by
  simp [touchPresence, h]

/-! ## A request frame -/

/-- A request frame on an IDLE link with RSTN released is answered. -/
theorem serve_idle {α : Type} (l : Link) (tag : Byte) (r : Req) (p : Payload α) (block : α → State → Reply) (s : State)
    (hr : s.pins.rstnHeld = false) (hi : (s.link l).exch = .idle) :
    serve l tag r p block s = deliver l r.code tag (answer l r p block (touchPresence l s)) := by
  simp [serve, hr, hi]

/-- A request frame on a link that is not IDLE is discarded. -/
theorem serve_busy {α : Type} (l : Link) (tag : Byte) (r : Req) (p : Payload α) (block : α → State → Reply) (s : State)
    (hr : s.pins.rstnHeld = false) (hi : (s.link l).exch ≠ .idle) :
    serve l tag r p block s = discardFrame l (touchPresence l s) := by
  simp only [serve, hr, Bool.false_eq_true, if_false, touchPresence_exch]

/-- A request that reaches its block gets the block's answer. -/
theorem serve_takes {α : Type} (l : Link) (tag : Byte) (r : Req) (a : α) (block : α → State → Reply) (s : State)
    (h : Takes l s) (hc : r.carriedBy l = true) :
    serve l tag r (.fields a) block s = deliver l r.code tag (block a (touchPresence l s)) := by
  obtain ⟨h1, h2, h3⟩ := h
  rw [serve_idle _ _ _ _ _ _ h1 h2]
  simp [answer, h3, hc]

/-- The state a block's reply carries. -/
def Reply.state : Reply → State
  | .done _ _ s => s
  | .wait s => s

/-- A property of states that no change of a link touches, and that a block keeps, is kept by the block's request. -/
theorem serve_induct {α : Type} (P : State → Prop) (hl : ∀ s l k, P s → P (s.setLink l k)) (l : Link) (tag : Byte) (r : Req)
    (p : Payload α) (block : α → State → Reply) (hb : ∀ a s, P s → P (block a s).state) (s : State) (hs : P s) :
    P (serve l tag r p block s) := by
  have ht : P (touchPresence l s) := by
    unfold touchPresence writeOver post
    dsimp only
    repeat' split
    · exact hl _ _ _ hs
    · exact hl _ _ _ (hl _ _ _ hs)
    · exact hl _ _ _ (hl _ _ _ (hl _ _ _ hs))
  have hd : ∀ y : Reply, P y.state → P (deliver l r.code tag y) := by
    intro y hy
    cases y with
    | done st q x => exact hl _ _ _ hy
    | wait x => exact hl _ _ _ hy
  unfold serve
  dsimp only
  split
  · exact hl _ _ _ hs
  · split
    · refine hd _ ?_
      unfold answer
      repeat' split
      · exact ht
      · exact ht
      · exact ht
      · exact hb _ _ ht
    · exact hl _ _ _ ht

/-- A request that waits leaves its link EXECUTING. -/
@[simp] theorem deliver_wait (l : Link) (r : Req) (tag : Byte) (s : State) :
    deliver l r.code tag (.wait s) = executing l r tag s := rfl

/-- A request answered at once leaves its response on the link. -/
@[simp] theorem deliver_done (l : Link) (r : Req) (tag : Byte) (st : Status) (p : List Byte) (s : State) :
    deliver l r.code tag (.done st p s) = answered l r tag st p s := rfl

/-- A refusal is answered with its status and no payload, on the state as it stands. -/
@[simp] theorem deliver_refuse (l : Link) (r : Req) (tag : Byte) (st : Status) (s : State) :
    deliver l r.code tag (refuse st s) = answered l r tag st [] s := rfl

/-- What `answered` leaves alone. -/
@[simp] theorem answered_keeps (l : Link) (r : Req) (tag : Byte) (st : Status) (p : List Byte) (s : State) :
    (answered l r tag st p s).ksu = s.ksu ∧ (answered l r tag st p s).chords = s.chords ∧ (answered l r tag st p s).session = s.session ∧
    (answered l r tag st p s).journal = s.journal ∧ (answered l r tag st p s).memory = s.memory ∧
    (answered l r tag st p s).dict = s.dict ∧ (answered l r tag st p s).trans = s.trans ∧ (answered l r tag st p s).lines = s.lines ∧
    (answered l r tag st p s).cls = s.cls ∧ (answered l r tag st p s).feeds = s.feeds ∧ (answered l r tag st p s).marks = s.marks ∧
    (answered l r tag st p s).pins = s.pins ∧ (answered l r tag st p s).now = s.now ∧ (answered l r tag st p s).events = s.events ∧
    (answered l r tag st p s).pending = s.pending := by simp [answered]

/-- What `executing` leaves alone. -/
@[simp] theorem executing_keeps (l : Link) (r : Req) (tag : Byte) (s : State) :
    (executing l r tag s).ksu = s.ksu ∧ (executing l r tag s).chords = s.chords ∧ (executing l r tag s).session = s.session ∧
    (executing l r tag s).journal = s.journal ∧ (executing l r tag s).memory = s.memory ∧ (executing l r tag s).dict = s.dict ∧
    (executing l r tag s).trans = s.trans ∧ (executing l r tag s).lines = s.lines ∧ (executing l r tag s).cls = s.cls ∧
    (executing l r tag s).feeds = s.feeds ∧ (executing l r tag s).marks = s.marks ∧ (executing l r tag s).pins = s.pins ∧
    (executing l r tag s).now = s.now ∧ (executing l r tag s).events = s.events ∧ (executing l r tag s).pending = s.pending := by
  simp [executing]

end Sys2Proof.Machine
end

