-- ==== Sys2Proof/Laws/Flags.lean ====
section
/-! SUPPORT. Latch sets only grow: for each shared operation, the flags latched before it are latched after it. -/

namespace Sys2Proof.Machine

/-! ## The relation -/

/-- A state keeps its own flags. -/
theorem FlagsKept.refl (s : State) : FlagsKept s s := fun l => by simp

/-- Flags kept twice are kept. -/
theorem FlagsKept.trans {s t u : State} (h1 : FlagsKept s t) (h2 : FlagsKept t u) : FlagsKept s u := fun l => by
  have a := h1 l
  have b := h2 l
  rw [← a, BitVec.and_assoc, b]

/-- The same, told from the end. -/
theorem FlagsKept.after {s t u : State} (h2 : FlagsKept t u) (h1 : FlagsKept s t) : FlagsKept s u := h1.trans h2

/-- Both latch sets as they were. -/
theorem FlagsKept.of_attn {s t : State} (h1 : t.reporter.attn = s.reporter.attn) (h2 : t.bench.attn = s.bench.attn) : FlagsKept s t := by
  intro l
  cases l <;> simp [State.link, h1, h2]

/-- A flag latched before is latched after. -/
theorem FlagsKept.holds {s t : State} (h : FlagsKept s t) (l : Link) (n : Notice) (hn : latchHolds n (s.link l).attn = true) :
    latchHolds n (t.link l).attn = true := by
  have e := h l
  unfold latchHolds at *
  rw [← e, BitVec.getLsbD_and] at hn
  simp only [Bool.and_eq_true] at hn
  exact hn.2

/-! ## The shared operations -/

theorem post_flags (l : Link) (n : Notice) (s : State) : FlagsKept s (post l n s) := by
  intro k
  cases l <;> cases k <;> simp [post, State.link, State.setLink, latch_mono]

theorem postBoth_flags (n : Notice) (s : State) : FlagsKept s (postBoth n s) := FlagsKept.after (post_flags _ _ _) (post_flags _ _ _)

theorem setLink_flags (l : Link) (k : LinkState) (s : State) (h : k.attn = (s.link l).attn) : FlagsKept s (s.setLink l k) := by
  intro m
  cases l <;> cases m <;> simp_all [State.link, State.setLink]

theorem respond_flags (l : Link) (r : Response) (s : State) : FlagsKept s (respond l r s) := setLink_flags _ _ _ rfl

theorem finish_flags (l : Link) (st : Status) (p : List Byte) (s : State) : FlagsKept s (finish l st p s) := by
  unfold finish
  split
  · exact respond_flags _ _ _
  · exact .refl s

theorem discardFrame_flags (l : Link) (s : State) : FlagsKept s (discardFrame l s) := setLink_flags _ _ _ rfl

theorem writeOver_flags (l : Link) (s : State) : FlagsKept s (writeOver l s) := setLink_flags _ _ _ rfl

theorem touchPresence_flags (l : Link) (s : State) : FlagsKept s (touchPresence l s) := by
  unfold touchPresence
  dsimp only
  repeat' split
  · exact writeOver_flags l s
  · exact FlagsKept.after (setLink_flags _ _ _ rfl) (writeOver_flags l s)
  · exact FlagsKept.after (post_flags _ _ _) (FlagsKept.after (setLink_flags _ _ _ rfl) (writeOver_flags l s))

theorem latchHealth_flags (l : Link) (f : Fin 4) (h : Health) (s : State) : FlagsKept s (latchHealth l f h s) := setLink_flags _ _ _ rfl

theorem refreshHealth_flags (f : Fin 4) (s : State) : FlagsKept s (refreshHealth f s) := by
  unfold refreshHealth
  dsimp only
  have k : FlagsKept s (latchHealth .bench f (healthOf (feed s f))
      (latchHealth .reporter f (healthOf (feed s f)) (setFeedCtx f { feed s f with health := healthOf (feed s f) } s))) :=
    FlagsKept.trans (t := setFeedCtx f { feed s f with health := healthOf (feed s f) } s) (.of_attn rfl rfl)
      ((latchHealth_flags _ _ _ _).trans (latchHealth_flags _ _ _ _))
  repeat' split
  · exact .refl s
  · exact k.trans (postBoth_flags _ _)
  · exact k

/-! ## The journal -/

theorem closingReport_flags (s : State) : FlagsKept s (closingReport s) := by
  unfold closingReport toStandby
  split
  · exact FlagsKept.trans (t := { s with session := { s.session with st := .standby } }) (.of_attn rfl rfl) (postBoth_flags _ _)
  · exact .refl s

theorem countMissed_flags (e : Entry) (s : State) : FlagsKept s (countMissed e s) := .of_attn (by simp) (by simp)

theorem abandonClear_flags (s : State) : FlagsKept s (abandonClear s) := by
  unfold abandonClear
  split
  · exact FlagsKept.trans (t := { s with journal := { s.journal with waiting := none } }) (.of_attn rfl rfl) (finish_flags _ _ _ _)
  · exact .refl s

theorem faultCounts_flags (s : State) : FlagsKept s (faultCounts s) := by
  unfold faultCounts
  split
  · exact FlagsKept.trans (t := clearMissed s) (.of_attn rfl rfl) (postBoth_flags _ _)
  · exact .refl s

theorem enterFault_flags (c : FaultCause) (s : State) : FlagsKept s (enterFault c s) := by
  unfold enterFault
  split
  · exact .refl s
  · refine FlagsKept.trans ?_ (closingReport_flags _)
    refine FlagsKept.trans ?_ (post_flags _ _ _)
    refine FlagsKept.trans ?_ (abandonClear_flags _)
    exact FlagsKept.after (.of_attn rfl rfl) (faultCounts_flags s)

theorem closeFilling_flags (r : CloseReason) (s : State) : FlagsKept s (closeFilling r s) := .of_attn (by simp) (by simp)

theorem putEntry_flags (e : Entry) (s : State) : FlagsKept s (putEntry e s) := by
  unfold putEntry
  split
  · exact .refl s
  · dsimp only
    repeat' split
    · exact FlagsKept.after (closeFilling_flags _ _) (.of_attn rfl rfl)
    · exact .of_attn rfl rfl
    · exact FlagsKept.after (enterFault_flags _ _) (FlagsKept.after (closeFilling_flags _ _) (.of_attn rfl rfl))
    · exact FlagsKept.after (enterFault_flags _ _) (.of_attn rfl rfl)

theorem openBlock_flags (i : Fin 4) (s : State) : FlagsKept s (openBlock i s) := .of_attn rfl rfl

theorem putRestart_flags (s : State) : FlagsKept s (putRestart s) := by
  unfold putRestart
  split
  · exact FlagsKept.after (putEntry_flags _ _) (.of_attn rfl rfl)
  · exact .refl s

theorem suspend_flags (e : Entry) (s : State) : FlagsKept s (suspend e s) := by
  unfold suspend
  exact FlagsKept.after (postBoth_flags _ _) (FlagsKept.after (countMissed_flags e _) (.of_attn rfl rfl))

theorem putOrCount_flags (e : Entry) (s : State) : FlagsKept s (putOrCount e s) := by
  unfold putOrCount
  split
  · exact putEntry_flags _ _
  · exact countMissed_flags _ _

theorem append_flags (e : Entry) (s : State) : FlagsKept s (append e s) := by
  unfold append
  repeat' split
  · exact countMissed_flags _ _
  · exact countMissed_flags _ _
  · exact putEntry_flags _ _
  · exact suspend_flags _ _
  · exact FlagsKept.after (countMissed_flags _ _) (enterFault_flags _ _)
  · exact FlagsKept.after (putOrCount_flags _ _) (FlagsKept.after (putRestart_flags _) (openBlock_flags _ _))

theorem endSuspension_flags (i : Fin 4) (s : State) : FlagsKept s (endSuspension i s) := by
  unfold endSuspension
  split
  · exact enterFault_flags _ _
  · exact FlagsKept.after (putEntry_flags _ _) (FlagsKept.after (postBoth_flags _ _) (.of_attn rfl rfl))

theorem lowCheck_flags (b : Journal) (s : State) : FlagsKept s (lowCheck b s) := by
  unfold lowCheck
  split
  · exact post_flags _ _ _
  · exact .refl s

theorem failureCheck_flags (s : State) : FlagsKept s (failureCheck s) := by
  unfold failureCheck
  split
  · exact enterFault_flags _ _
  · exact .refl s

theorem resumeIfSuspended_flags (i : Fin 4) (s : State) : FlagsKept s (resumeIfSuspended i s) := by
  unfold resumeIfSuspended
  split
  · exact endSuspension_flags _ _
  · exact .refl s

theorem askClose_flags (r : CloseReason) (s : State) : FlagsKept s (askClose r s) := by
  unfold askClose
  split
  · exact .refl s
  · exact closeFilling_flags _ _

/-! ## Classes, the dictionary, marks -/

theorem reformClass_flags (n : Nat) (s : State) : FlagsKept s (reformClass n s) := by
  unfold reformClass
  dsimp only
  repeat' split
  · exact .refl s
  · exact FlagsKept.after (postBoth_flags _ _) (FlagsKept.after (append_flags _ _) (.of_attn rfl rfl))
  · exact .of_attn rfl rfl

theorem takeSbar_flags (s : State) : FlagsKept s (takeSbar s) := by
  unfold takeSbar
  dsimp only
  split
  · exact FlagsKept.after (reformClass_flags _ _) (FlagsKept.after (postBoth_flags _ _) (.of_attn rfl rfl))
  · exact FlagsKept.after (reformClass_flags _ _) (.of_attn rfl rfl)

theorem discardGroup_flags (s : State) : FlagsKept s (discardGroup s) := by
  unfold discardGroup
  split
  · exact .refl s
  · exact FlagsKept.after (post_flags _ _ _) (.of_attn rfl rfl)

theorem tellOwners_flags (p : Mark → Bool) (ms : List Mark) (s : State) : FlagsKept s (tellOwners p ms s) := by
  unfold tellOwners
  dsimp only
  repeat' split
  · exact FlagsKept.after (post_flags _ _ _) (post_flags _ _ _)
  · exact post_flags _ _ _
  · exact post_flags _ _ _
  · exact .refl s

theorem reviseMarks_flags (n : Nat) (s : State) : FlagsKept s (reviseMarks n s) := by
  unfold reviseMarks
  exact FlagsKept.after (tellOwners_flags _ _ _) (.of_attn rfl rfl)

theorem detachMarks_flags (n : Nat) (s : State) : FlagsKept s (detachMarks n s) := by
  unfold detachMarks
  exact FlagsKept.after (tellOwners_flags _ _ _) (.of_attn rfl rfl)

/-! ## Feeds -/

theorem liftLowWaters_flags (s : State) : FlagsKept s (liftLowWaters s) := .of_attn rfl rfl

theorem removeDone_flags (s : State) : FlagsKept s (removeDone s) := .of_attn rfl rfl

theorem startFrame_flags (f : Fin 4) (d : Due) (s : State) : FlagsKept s (startFrame f d s) := by
  cases d with
  | update l q => exact .of_attn rfl rfl
  | line l =>
    simp only [startFrame]
    exact FlagsKept.after (refreshHealth_flags _ _) (.of_attn rfl rfl)
  | withdraw l => exact .of_attn rfl rfl
  | withheld l =>
    simp only [startFrame]
    exact FlagsKept.after (refreshHealth_flags _ _) (.of_attn rfl rfl)
  | idle => exact .of_attn rfl rfl
  | test =>
    simp only [startFrame]
    split
    · exact .refl s
    · exact .of_attn rfl rfl

theorem actOn_flags (f : Fin 4) (d : Due) (s : State) : FlagsKept s (actOn f d s) := by
  unfold actOn
  split
  · exact startFrame_flags _ _ _
  · exact .of_attn rfl rfl

theorem raiseLow_flags (f : Fin 4) (s : State) : FlagsKept s (raiseLow f s) := .of_attn rfl rfl

theorem chooseLive_flags (f : Fin 4) (s : State) : FlagsKept s (chooseLive f s) := by
  unfold chooseLive
  dsimp only
  split
  · exact FlagsKept.after (raiseLow_flags _ _) (FlagsKept.after (actOn_flags _ _ _) (.of_attn rfl rfl))
  · exact .of_attn rfl rfl

theorem choose_flags (f : Fin 4) (s : State) : FlagsKept s (choose f s) := by
  unfold choose
  dsimp only
  repeat' split
  all_goals first | exact .refl s | exact chooseLive_flags _ _ | exact actOn_flags _ _ _

/-- A fold of operations that keep the flags keeps them. -/
theorem foldl_flags {α : Type} (g : State → α → State) (hg : ∀ s a, FlagsKept s (g s a)) (l : List α) (s : State) :
    FlagsKept s (l.foldl g s) := by
  induction l generalizing s with
  | nil => exact .refl s
  | cons a l ih => exact (hg s a).trans (ih _)

theorem chooseAll_flags (s : State) : FlagsKept s (chooseAll s) := foldl_flags _ (fun s f => choose_flags f s) _ _

theorem editNotice_flags (n : Nat) (s : State) : FlagsKept s (editNotice n s) := by
  refine foldl_flags _ (fun s f => ?_) _ _
  unfold takeEdit
  dsimp only
  split
  · exact FlagsKept.after (refreshHealth_flags _ _) (.of_attn rfl rfl)
  · exact .refl s

theorem reclaimFeeds_flags (rs : List Line) (l : Line) (s : State) : FlagsKept s (reclaimFeeds rs l s) := by
  refine foldl_flags _ (fun s f => ?_) _ _
  unfold takeReclaim
  dsimp only
  split
  · exact FlagsKept.after (refreshHealth_flags _ _) (.of_attn rfl rfl)
  · exact .refl s

theorem becomeOff_flags (f : Fin 4) (s : State) : FlagsKept s (becomeOff f s) := by
  unfold becomeOff
  exact FlagsKept.after (refreshHealth_flags _ _) (.of_attn rfl rfl)

theorem becomeStopping_flags (f : Fin 4) (s : State) : FlagsKept s (becomeStopping f s) := by
  unfold becomeStopping
  exact FlagsKept.after (refreshHealth_flags _ _) (.of_attn rfl rfl)

theorem endTest_flags (f : Fin 4) (o : TestOutcome) (s : State) : FlagsKept s (endTest f o s) := by
  unfold endTest
  exact FlagsKept.after (post_flags _ _ _) (FlagsKept.after (becomeOff_flags f _) (.of_attn rfl rfl))

theorem enterByHold_flags (f : Fin 4) (s : State) : FlagsKept s (enterByHold f s) := .of_attn rfl rfl

theorem holdChanged_flags (f : Fin 4) (s : State) : FlagsKept s (holdChanged f s) := by
  have k := FlagsKept.after (choose_flags f _) (FlagsKept.after (refreshHealth_flags f _) (enterByHold_flags f s))
  unfold holdChanged
  repeat' split
  all_goals first | exact .refl s | exact k

theorem feedsAtOpen_flags (s : State) : FlagsKept s (feedsAtOpen s) := by
  refine foldl_flags _ (fun s f => ?_) _ _
  unfold feedAtOpen
  dsimp only
  split
  all_goals first | exact FlagsKept.after (refreshHealth_flags _ _) (.of_attn rfl rfl) | exact .refl s

/-! ## Lines and translation -/

theorem reclaim_flags (s : State) : FlagsKept s (reclaim s) := by
  unfold reclaim
  split
  · exact .refl s
  · exact FlagsKept.after (liftLowWaters_flags _) (FlagsKept.after (detachMarks_flags _ _) (FlagsKept.after (reclaimFeeds_flags _ _ _) (.of_attn rfl rfl)))

theorem openNew_flags (c : Cls) (s : State) : FlagsKept s (openNew c s) := by
  unfold openNew
  dsimp only
  split
  · exact (reclaim_flags s).trans (.of_attn rfl rfl)
  · exact .of_attn rfl rfl

theorem closeOpen_flags (s : State) : FlagsKept s (closeOpen s).1 := .of_attn (by simp) (by simp)

theorem settleAll_flags (s : State) : FlagsKept s (settleAll s).1 := .of_attn (by simp) (by simp)

theorem layOpen_flags (r : PlaceReq) (o : Opening) (y : Laying) : FlagsKept y.s (layOpen r o y).s := by
  unfold layOpen
  split
  · exact .refl _
  · exact openNew_flags _ _

theorem layChars_flags (r : PlaceReq) (cs : List Byte) (y : Laying) : FlagsKept y.s (layChars r cs y).s := by
  unfold layChars
  repeat' split
  all_goals exact .refl _

theorem layWrap_flags (r : PlaceReq) (y : Laying) : FlagsKept y.s (layWrap r y).s :=
  (closeOpen_flags y.s).trans (layOpen_flags r .wrap { y with s := (closeOpen y.s).1, settled := y.settled ++ (closeOpen y.s).2 })

theorem layWord_flags (r : PlaceReq) (n : Nat) (w : List Byte) (y : Laying) : FlagsKept y.s (layWord r n w y).s := by
  induction n generalizing w y with
  | zero => exact .refl _
  | succ n ih =>
    unfold layWord
    dsimp only
    repeat' split
    · exact .refl _
    · exact layChars_flags _ _ _
    · exact FlagsKept.after (ih _ _) (layWrap_flags r y)
    · exact FlagsKept.after (ih _ _) (FlagsKept.after (layWrap_flags r _) (layChars_flags _ _ _))

theorem layInLine_flags (r : PlaceReq) (t : Token) (y : Laying) : FlagsKept y.s (layInLine r t y).s := by
  unfold layInLine
  dsimp only
  repeat' split
  · exact layChars_flags _ _ _
  · exact layChars_flags _ _ _
  · exact FlagsKept.after (layWord_flags _ _ _ _) (layWrap_flags r y)
  · exact FlagsKept.after (layWord_flags _ _ _ _) (layChars_flags _ _ _)

theorem layToken_flags (r : PlaceReq) (y : Laying) (t : Token) : FlagsKept y.s (layToken r y t).s := by
  unfold layToken
  dsimp only
  split
  · exact .refl _
  · have k : FlagsKept y.s (if y.s.lines.openLine.isSome then y else layOpen r .forced y).s := by
      split
      · exact .refl _
      · exact layOpen_flags _ _ _
    generalize (if y.s.lines.openLine.isSome then y else layOpen r .forced y) = y1 at k ⊢
    split
    · exact k
    · exact k.trans (layInLine_flags _ _ _)

theorem layTokens_flags (r : PlaceReq) (ts : List Token) (y : Laying) : FlagsKept y.s (ts.foldl (layToken r) y).s := by
  induction ts generalizing y with
  | nil => exact .refl _
  | cons t ts ih => exact (layToken_flags r y t).trans (ih _)

theorem closeOtherClass_flags (c : Cls) (s : State) : FlagsKept s (closeOtherClass c s).1 := .of_attn (by simp) (by simp)

theorem place_flags (r : PlaceReq) (s : State) : FlagsKept s (place r s).s := by
  unfold place
  dsimp only
  refine FlagsKept.trans ?_ (layTokens_flags r _ _)
  dsimp only
  split
  · exact FlagsKept.after (closeOtherClass_flags _ _) (closeOpen_flags s)
  · exact closeOtherClass_flags _ _

theorem placeFormed_flags (u : Formed) (s : State) : FlagsKept s (placeFormed u s).s := by
  unfold placeFormed placeEmpty
  dsimp only
  repeat' split
  · exact closeOpen_flags s
  · exact .refl s
  · exact place_flags _ _

theorem placeUnit_flags (keep : Bool) (u : Formed) (s : State) : FlagsKept s (placeUnit keep u s) :=
  (placeFormed_flags u s).trans (.of_attn rfl rfl)

theorem pass_flags (flush keep : Bool) (n : Nat) (s : State) : FlagsKept s (pass flush keep n s) := by
  induction n generalizing s with
  | zero => exact .refl s
  | succ n ih =>
    unfold pass
    dsimp only
    repeat' split
    · exact .refl s
    · exact .refl s
    · exact FlagsKept.after (ih _) (FlagsKept.after (placeUnit_flags _ _ _) (.of_attn rfl rfl))

theorem setTimer_flags (b : List TStroke) (s : State) : FlagsKept s (setTimer b s) := .of_attn (by simp) (by simp)

theorem withdrawLines_flags (p : Nat → Bool) (s : State) : FlagsKept s (withdrawLines p s) := .of_attn (by simp) (by simp)

theorem retract_flags (p : Placement) (s : State) : FlagsKept s (retract p s) := .of_attn (by simp) (by simp)

theorem flushComplete_flags (s : State) : FlagsKept s (flushComplete s) := (settleAll_flags s).trans (.of_attn rfl rfl)

theorem retractUnit_flags (u : TUnit) (s : State) : FlagsKept s (retractUnit u s) := by
  unfold retractUnit
  dsimp only
  refine FlagsKept.trans (FlagsKept.trans ?_ (pass_flags _ _ _ _)) (setTimer_flags _ _)
  split
  · rename_i p _
    exact (retract_flags p s).trans (.of_attn rfl rfl)
  · exact .of_attn rfl rfl

theorem takeStroke_flags (k : Stroke) (s : State) : FlagsKept s (takeStroke k s) := by
  unfold takeStroke takeCorrection
  repeat' split
  · exact FlagsKept.after (setTimer_flags _ _) (FlagsKept.after (pass_flags _ _ _ _) (.of_attn rfl rfl))
  · exact retractUnit_flags _ _
  · exact post_flags _ _ _
  · exact FlagsKept.after (setTimer_flags _ _) (FlagsKept.after (pass_flags _ _ _ _) (.of_attn rfl rfl))
  · exact post_flags _ _ _
  · exact FlagsKept.after (flushComplete_flags _) (FlagsKept.after (setTimer_flags _ _) (FlagsKept.after (pass_flags _ _ _ _) (.of_attn rfl rfl)))

theorem takeAllHanded_flags (n : Nat) (s : State) : FlagsKept s (takeAllHanded n s) := by
  induction n generalizing s with
  | zero => exact .refl s
  | succ n ih =>
    unfold takeAllHanded
    split
    · exact .refl s
    · exact FlagsKept.after (ih _) (FlagsKept.after (takeStroke_flags _ _) (.of_attn rfl rfl))

theorem leaveLive_flags (c : Bool) (s : State) : FlagsKept s (leaveLive c s) := by
  unfold leaveLive
  exact FlagsKept.after (flushComplete_flags _) ((pass_flags true true s.trans.lookahead.length s).trans (.of_attn rfl rfl))

/-! ## Keys and chords -/

theorem abandonChord_flags (s : State) : FlagsKept s (abandonChord s) := .of_attn (by simp) (by simp)

theorem clearChord_flags (s : State) : FlagsKept s (clearChord s) := .of_attn rfl rfl

theorem handOver_flags (k : Stroke) (s : State) : FlagsKept s (handOver k s) := .of_attn rfl rfl

theorem closeChord_flags (c : Chord) (s : State) : FlagsKept s (closeChord c s) := by
  unfold closeChord
  dsimp only
  repeat' split
  · exact abandonChord_flags s
  · exact .of_attn rfl rfl
  · refine FlagsKept.after (clearChord_flags _) (FlagsKept.after (handOver_flags _ _) (FlagsKept.after (append_flags _ _) ?_))
    exact .of_attn rfl rfl

theorem reportMove_flags (i : Nat) (m : KeyMove) (s : State) : FlagsKept s (reportMove i m s) := by
  cases m with
  | stayed => exact .refl s
  | wentDown =>
    simp only [reportMove, keyWentDown]
    repeat' split
    all_goals exact .of_attn rfl rfl
  | wentUp =>
    simp only [reportMove, keyWentUp]
    repeat' split
    · exact .refl s
    · exact closeChord_flags _ _
    · exact .refl s

end Sys2Proof.Machine
end

