-- ==== Sys2Proof/Laws/Memory.lean ====
section
/-! SUPPORT. Sparse tables and the attached memory: reading after a change, and the canonical form kept by every operation. -/

namespace Sys2Proof.Machine

/-- A put adds no slot but its own. -/
theorem mem_sparsePut {β : Type} (a : Nat) (v : β) (t : List (Nat × β)) (p : Nat × β) (h : p ∈ sparsePut a v t) : p = (a, v) ∨ p ∈ t := by
  induction t with
  | nil => simpa [sparsePut] using h
  | cons q r ih => grind [sparsePut]

/-- A drop adds nothing. -/
theorem mem_sparseDrop {β : Type} (a : Nat) (t : List (Nat × β)) (p : Nat × β) (h : p ∈ sparseDrop a t) : p ∈ t := by
  induction t with
  | nil => simp [sparseDrop] at h
  | cons q r ih => grind [sparseDrop]

/-- A put keeps the slots rising. -/
theorem sparsePut_rising {β : Type} (a : Nat) (v : β) (t : List (Nat × β)) (h : sparseRising t) : sparseRising (sparsePut a v t) := by
  unfold sparseRising at *
  rw [List.pairwise_map] at *
  induction t with
  | nil => simp [sparsePut]
  | cons q r ih => grind [sparsePut, → mem_sparsePut, List.pairwise_cons]

/-- A drop keeps the slots rising. -/
theorem sparseDrop_rising {β : Type} (a : Nat) (t : List (Nat × β)) (h : sparseRising t) : sparseRising (sparseDrop a t) := by
  unfold sparseRising at *
  rw [List.pairwise_map] at *
  induction t with
  | nil => simp [sparseDrop]
  | cons q r ih => grind [sparseDrop, → mem_sparseDrop, List.pairwise_cons]

/-- A filter keeps the slots rising. -/
theorem filter_rising {β : Type} (g : Nat × β → Bool) (t : List (Nat × β)) (h : sparseRising t) : sparseRising (t.filter g) :=
  List.Pairwise.sublist (List.Sublist.map _ List.filter_sublist) h

/-- Slot `b` read after a put at `a`. -/
theorem sparseGet_put {β : Type} (a b : Nat) (v : β) (t : List (Nat × β)) (h : sparseRising t) :
    sparseGet (sparsePut a v t) b = if a = b then some v else sparseGet t b := by
  unfold sparseRising at h
  rw [List.pairwise_map] at h
  induction t with
  | nil => simp [sparsePut, sparseGet]
  | cons q r ih => grind [sparsePut, sparseGet, List.pairwise_cons]

/-- A slot below every listed one is not listed. -/
theorem sparseGet_none_of_lt {β : Type} (a : Nat) (t : List (Nat × β)) (h : ∀ p ∈ t, a < p.1) : sparseGet t a = none := by
  induction t with
  | nil => rfl
  | cons q r ih => grind [sparseGet]

/-- The number of listed slots after a put: one more where the slot was FREE, as many where it was not. -/
theorem length_sparsePut {β : Type} (a : Nat) (v : β) (t : List (Nat × β)) (h : sparseRising t) :
    (sparsePut a v t).length = if (sparseGet t a).isNone then t.length + 1 else t.length := by
  unfold sparseRising at h
  rw [List.pairwise_map] at h
  induction t with
  | nil => simp [sparsePut, sparseGet]
  | cons q r ih => grind [sparsePut, sparseGet, sparseGet_none_of_lt, List.pairwise_cons]

/-- Slot `b` read after a drop at `a`. -/
theorem sparseGet_drop {β : Type} (a b : Nat) (t : List (Nat × β)) (h : sparseRising t) :
    sparseGet (sparseDrop a t) b = if a = b then none else sparseGet t b := by
  unfold sparseRising at h
  rw [List.pairwise_map] at h
  induction t with
  | nil => simp [sparseDrop, sparseGet]
  | cons q r ih => grind [sparseDrop, sparseGet, sparseGet_none_of_lt, List.pairwise_cons]

/-! ## The attached memory -/

/-- A write keeps the canonical form. -/
theorem write_wf (m : Memory) (slot : Nat) (bytes : List Byte) (h : Memory.wf m) : Memory.wf (m.write slot bytes) := by
  unfold Memory.write
  split
  · exact ⟨sparseDrop_rising _ _ h.1, fun p hp => h.2 p (mem_sparseDrop _ _ p hp)⟩
  · rename_i hb
    refine ⟨sparsePut_rising _ _ _ h.1, fun p hp => ?_⟩
    rcases mem_sparsePut _ _ _ p hp with rfl | hp
    · exact hb
    · exact h.2 p hp

/-- A transfer cut or failed keeps the canonical form. -/
theorem cut_wf (m : Memory) (k slot : Nat) (bytes : List Byte) (h : Memory.wf m) : Memory.wf (m.cut k slot bytes) :=
  write_wf _ _ _ h

/-- A slot read after a write: the bytes written there, and elsewhere what stood there. -/
theorem read_write (m : Memory) (slot b : Nat) (bytes : List Byte) (h : Memory.wf m) :
    (m.write slot bytes).read b = if slot = b then bytes else m.read b := by
  unfold Memory.read Memory.write
  split
  · rename_i hb
    rw [sparseGet_drop _ _ _ h.1]
    split <;> simp [hb]
  · rw [sparseGet_put _ _ _ _ h.1]
    split <;> simp

/-- The memory at `State.reset` has the canonical form. -/
theorem reset_memory_wf : Memory.wf State.reset.memory := by simp [Memory.wf, sparseRising, State.reset]

/-! ## The CRC of a slot -/

/-- A CRC field is two bytes, the high byte first (R221). -/
theorem crcField_eq (c : BitVec 16) : crcField c = [BitVec.ofNat 8 (c.toNat / 256), BitVec.ofNat 8 c.toNat] := by
  have := c.isLt
  simp [crcField, be, this, beDigits]

/-- The CRC of a slot is good exactly where the field behind its first 30 bytes holds the CRC of all the others (R46, R218, R221). -/
theorem crcGood_append (a b : List Byte) (c : BitVec 16) (ha : a.length = 30) :
    crcGood (a ++ crcField c ++ b) = decide (crc16 (a ++ b) = c) := by
  have hf : fieldAt (a ++ crcField c ++ b) 30 2 = c.toNat := by
    have := c.isLt
    simp [crcField_eq, fieldAt, ofBe, ← ha]
    omega
  have hb : (a ++ crcField c ++ b).take 30 ++ (a ++ crcField c ++ b).drop 32 = a ++ b := by
    simp [crcField_eq, ← ha, List.drop_append, show 32 - a.length = 2 by omega, List.drop_eq_nil_of_le (show a.length ≤ 32 by omega)]
  unfold crcGood
  rw [hb, hf]
  simp only [BitVec.toNat_inj]

end Sys2Proof.Machine
end

