-- ==== Sys2Proof/Laws/Journal.lean ====
section
/-! SUPPORT. The Journal Controller's shared operations: the parts of the journal an append or a fault leaves alone, and the one change either
can make to the session (R65). -/

namespace Sys2Proof.Machine

/-! ## The session -/

/-- The session is as it was, or it was CLOSING and has reached STANDBY (R65). -/
def SessionKept (s t : State) : Prop :=
  t.session = s.session ∨ (s.session.st = .closing ∧ t.session = { s.session with st := .standby })

theorem SessionKept.of_eq {s t : State} (h : t.session = s.session) : SessionKept s t := .inl h

theorem SessionKept.trans {s t u : State} (h1 : SessionKept s t) (h2 : SessionKept t u) : SessionKept s u := by
  rcases h1 with h1 | ⟨c1, h1⟩
  · rcases h2 with h2 | ⟨c2, h2⟩
    · exact .inl (h2.trans h1)
    · exact .inr ⟨by rw [← h1]; exact c2, by rw [h2, h1]⟩
  · rcases h2 with h2 | ⟨c2, h2⟩
    · exact .inr ⟨c1, h2.trans h1⟩
    · rw [h1] at c2
      exact absurd c2 (by simp)

/-- The same, told from the end. -/
theorem SessionKept.after {s t u : State} (h2 : SessionKept t u) (h1 : SessionKept s t) : SessionKept s u := h1.trans h2

/-- Outside CLOSING the session is as it was. -/
theorem SessionKept.eq {s t : State} (h : SessionKept s t) (hc : s.session.st ≠ .closing) : t.session = s.session := by
  rcases h with h | ⟨h, _⟩
  · exact h
  · exact absurd h hc

/-- Only CLOSING becomes another state, STANDBY. -/
theorem SessionKept.st {s t : State} (h : SessionKept s t) (st : SessState) (hst : st ≠ .standby) (ht : t.session.st = st) :
    s.session.st = st := by
  rcases h with h | ⟨_, h⟩
  · rw [← h]; exact ht
  · rw [h] at ht
    exact absurd ht.symm hst

theorem closingReport_session (s : State) : SessionKept s (closingReport s) := by
  unfold closingReport
  split
  · rename_i h
    exact .inr ⟨h.1, by simp [toStandby]⟩
  · exact .inl rfl

theorem enterFault_session (c : FaultCause) (s : State) : SessionKept s (enterFault c s) := by
  unfold enterFault
  split
  · exact .inl rfl
  · exact .after (closingReport_session _) (.of_eq (by simp))

theorem putEntry_session (e : Entry) (s : State) : SessionKept s (putEntry e s) := by
  unfold putEntry
  split
  · exact .inl rfl
  · dsimp only
    repeat' split
    · exact .of_eq (by simp)
    · exact .inl rfl
    · exact .after (enterFault_session _ _) (.of_eq (by simp))
    · exact .after (enterFault_session _ _) (.inl rfl)

theorem putRestart_session (s : State) : SessionKept s (putRestart s) := by
  unfold putRestart
  split
  · exact .after (putEntry_session _ _) (.inl rfl)
  · exact .inl rfl

theorem putOrCount_session (e : Entry) (s : State) : SessionKept s (putOrCount e s) := by
  unfold putOrCount
  split
  · exact putEntry_session _ _
  · exact .of_eq (by simp)

/-- An append changes the session only by ending CLOSING. -/
theorem append_session (e : Entry) (s : State) : SessionKept s (append e s) := by
  unfold append
  repeat' split
  · exact .of_eq (by simp)
  · exact .of_eq (by simp)
  · exact putEntry_session _ _
  · exact .of_eq (by simp [suspend])
  · exact .after (.of_eq (by simp)) (enterFault_session .sequenceExhausted s)
  · exact .after (putOrCount_session _ _) (.after (putRestart_session _) (.of_eq (by simp)))

theorem endSuspension_session (i : Fin 4) (s : State) : SessionKept s (endSuspension i s) := by
  unfold endSuspension
  split
  · exact enterFault_session _ _
  · exact .after (putEntry_session _ _) (.of_eq (by simp))

/-! ## The parts of the journal an append leaves alone -/

/-- The parts of the journal that no append touches: the slot table with its counts of failures, the port, recovery's place, the interval and
the last-assigned slot. -/
def Journal.storePart (j : Journal) : SlotTable × Nat × Nat × Port × Nat × Nat × Nat :=
  (j.slots, j.failures, j.failedClears, j.port, j.cursor, j.interval, j.lastSlot)

/-- Those parts are as they were. -/
def StoreKept (s t : State) : Prop := t.journal.storePart = s.journal.storePart

theorem StoreKept.of_eq {s t : State} (h : t.journal = s.journal) : StoreKept s t := congrArg Journal.storePart h

/-- An update of other fields of the journal. -/
theorem StoreKept.upd {s t : State} (h : t.journal.storePart = s.journal.storePart) : StoreKept s t := h

theorem StoreKept.trans {s t u : State} (h1 : StoreKept s t) (h2 : StoreKept t u) : StoreKept s u := Eq.trans h2 h1

/-- The same, told from the end. -/
theorem StoreKept.after {s t u : State} (h2 : StoreKept t u) (h1 : StoreKept s t) : StoreKept s u := h1.trans h2

theorem StoreKept.slots {s t : State} (h : StoreKept s t) : t.journal.slots = s.journal.slots := congrArg (·.1) h

theorem StoreKept.failures {s t : State} (h : StoreKept s t) : t.journal.failures = s.journal.failures := congrArg (·.2.1) h

theorem StoreKept.failedClears {s t : State} (h : StoreKept s t) : t.journal.failedClears = s.journal.failedClears := congrArg (·.2.2.1) h

theorem StoreKept.port {s t : State} (h : StoreKept s t) : t.journal.port = s.journal.port := congrArg (·.2.2.2.1) h

theorem StoreKept.lastSlot {s t : State} (h : StoreKept s t) : t.journal.lastSlot = s.journal.lastSlot := congrArg (·.2.2.2.2.2.2) h

theorem post_store (l : Link) (n : Notice) (s : State) : StoreKept s (post l n s) := .of_eq (by simp)

theorem postBoth_store (n : Notice) (s : State) : StoreKept s (postBoth n s) := .of_eq (by simp)

theorem closingReport_store (s : State) : StoreKept s (closingReport s) := .of_eq (by simp)

theorem finish_store (l : Link) (st : Status) (p : List Byte) (s : State) : StoreKept s (finish l st p s) := .of_eq (by simp)

theorem countMissed_store (e : Entry) (s : State) : StoreKept s (countMissed e s) := by
  unfold countMissed
  split <;> exact .upd rfl

theorem enterFault_store (c : FaultCause) (s : State) : StoreKept s (enterFault c s) := by
  have k1 : StoreKept s (faultCounts s) := by
    unfold faultCounts
    split
    · exact .after (postBoth_store _ _) (.upd (t := clearMissed s) rfl)
    · exact .of_eq rfl
  have k2 : ∀ x : State, StoreKept x (abandonClear x) := by
    intro x
    unfold abandonClear
    split
    · exact .after (finish_store _ _ _ _) (.upd (t := { x with journal := { x.journal with waiting := none } }) rfl)
    · exact .of_eq rfl
  unfold enterFault
  split
  · exact .of_eq rfl
  · refine .after (closingReport_store _) (.after (post_store _ _ _) (.after (k2 _) ?_))
    exact k1.trans (.upd rfl)

theorem closeFilling_store (r : CloseReason) (s : State) : StoreKept s (closeFilling r s) := by
  unfold closeFilling
  split
  · exact .of_eq rfl
  · exact .upd rfl

theorem putEntry_store (e : Entry) (s : State) : StoreKept s (putEntry e s) := by
  unfold putEntry
  split
  · exact .of_eq rfl
  · dsimp only
    repeat' split
    · exact .after (closeFilling_store _ _) (.upd rfl)
    · exact .upd rfl
    · exact .after (enterFault_store _ _) (.after (closeFilling_store _ _) (.upd rfl))
    · exact .after (enterFault_store _ _) (.upd rfl)

theorem openBlock_store (i : Fin 4) (s : State) : StoreKept s (openBlock i s) := .upd rfl

theorem putRestart_store (s : State) : StoreKept s (putRestart s) := by
  unfold putRestart
  split
  · exact .after (putEntry_store _ _) (.upd rfl)
  · exact .of_eq rfl

theorem putOrCount_store (e : Entry) (s : State) : StoreKept s (putOrCount e s) := by
  unfold putOrCount
  split
  · exact putEntry_store _ _
  · exact countMissed_store _ _

/-- An append leaves the slot table, the failure count and the port. -/
theorem append_store (e : Entry) (s : State) : StoreKept s (append e s) := by
  unfold append
  repeat' split
  · exact countMissed_store _ _
  · exact countMissed_store _ _
  · exact putEntry_store _ _
  · unfold suspend
    exact .after (postBoth_store _ _) (.after (countMissed_store _ _) (.upd rfl))
  · exact .after (countMissed_store _ _) (enterFault_store .sequenceExhausted s)
  · exact .after (putOrCount_store _ _) (.after (putRestart_store _) (openBlock_store _ _))

theorem endSuspension_store (i : Fin 4) (s : State) : StoreKept s (endSuspension i s) := by
  unfold endSuspension
  split
  · exact enterFault_store _ _
  · refine .after (putEntry_store _ _) (.after (postBoth_store _ _) ?_)
    exact .upd rfl

/-! ## A fault -/

/-- A journal that is not FAULTED becomes FAULTED with the cause, its interval timer cancelled, its buffers and its queue as they were. -/
theorem enterFault_journal (c : FaultCause) (s : State) (h : s.journal.cond.isFaulted = false) :
    (enterFault c s).journal.cond = .faulted c ∧ (enterFault c s).journal.intervalTimer = none ∧
      (enterFault c s).journal.buffers = s.journal.buffers ∧ (enterFault c s).journal.queue = s.journal.queue ∧
      latchHolds .journalFault (enterFault c s).reporter.attn = true := by
  have e : enterFault c s = closingReport (post .reporter .journalFault (abandonClear (setFaulted c (faultCounts s)))) := by
    simp [enterFault, h]
  have hf : latchHolds .journalFault (enterFault c s).reporter.attn = true := by
    rw [e]
    exact (closingReport_flags _).holds .reporter .journalFault (by simp [post, State.link, State.setLink])
  refine ⟨?_, ?_, ?_, ?_, hf⟩
  all_goals
    rw [e]
    simp only [closingReport_keeps, post_keeps]
    unfold abandonClear faultCounts
    repeat' split
    all_goals simp [setFaulted, clearMissed]

/-! ## JOURNAL_LOW -/

/-- JOURNAL_LOW is latched on the reporter link. -/
def lowLatched (s : State) : Bool := latchHolds .journalLow s.reporter.attn

theorem post_low (l : Link) (n : Notice) (s : State) (h : n ≠ .journalLow) : lowLatched (post l n s) = lowLatched s := by
  cases l <;> simp [lowLatched, post, State.link, State.setLink, latchHolds_latch_other _ _ _ h.symm]

theorem postBoth_low (n : Notice) (s : State) (h : n ≠ .journalLow) : lowLatched (postBoth n s) = lowLatched s := by
  rw [postBoth, post_low _ _ _ h, post_low _ _ _ h]

theorem closingReport_low (s : State) : lowLatched (closingReport s) = lowLatched s := by
  unfold closingReport
  split
  · exact postBoth_low _ _ (by decide)
  · rfl

theorem abandonClear_low (s : State) : lowLatched (abandonClear s) = lowLatched s := by
  unfold abandonClear finish
  repeat' split
  all_goals rfl

theorem faultCounts_low (s : State) : lowLatched (faultCounts s) = lowLatched s := by
  unfold faultCounts
  split
  · exact postBoth_low _ _ (by decide)
  · rfl

theorem enterFault_low (c : FaultCause) (s : State) : lowLatched (enterFault c s) = lowLatched s := by
  unfold enterFault
  split
  · rfl
  · rw [closingReport_low, post_low _ _ _ (by decide), abandonClear_low]
    exact faultCounts_low s

theorem putEntry_low (e : Entry) (s : State) : lowLatched (putEntry e s) = lowLatched s := by
  unfold putEntry closeFilling
  dsimp only
  repeat' split
  all_goals first
    | rfl
    | exact enterFault_low _ _

theorem resumeIfSuspended_low (i : Fin 4) (s : State) : lowLatched (resumeIfSuspended i s) = lowLatched s := by
  unfold resumeIfSuspended endSuspension
  repeat' split
  · exact enterFault_low _ _
  · exact (putEntry_low _ _).trans (postBoth_low _ _ (by decide))
  · rfl

theorem failureCheck_low (s : State) : lowLatched (failureCheck s) = lowLatched s := by
  unfold failureCheck
  split
  · exact enterFault_low _ _
  · rfl

/-- The check of the number of FREE slots posts JOURNAL_LOW exactly where it has fallen from 65 to 64 (R39). -/
theorem lowCheck_low (b : Journal) (s : State) :
    lowLatched (lowCheck b s) = (lowLatched s || decide (lowNumberIs b 65 = true ∧ lowNumberIs s.journal 64 = true)) := by
  unfold lowCheck lowSlots
  split
  · rename_i h
    simp [lowLatched, post, State.link, State.setLink, h]
  · rename_i h
    simp [h]

/-- A request that waits for nothing is not answered by a fault. -/
theorem finish_ready (l : Link) (st : Status) (p : List Byte) (s : State) (h : ∀ c t, (s.link l).exch ≠ .executing c t) :
    finish l st p s = s := by
  unfold finish
  split
  · rename_i c t e
    exact absurd e (h c t)
  · rfl

end Sys2Proof.Machine
end

