-- ==== Sys2Proof/Laws/Feeds.lean ====
section
/-! SUPPORT. The feeds: a context after each shared operation, what no frame choice changes, and the rule of R156 kept by each operation. -/

namespace Sys2Proof.Machine

/-! ## One context -/

/-- With no frame in flight FnTX idles high. -/
theorem txIdle_of_flight (s : State) (f : Fin 4) (h : (feed s f).flight = none) : TxIdle s f := by
  simp [TxIdle, fnTx, h, TxBit.level]

/-- A context written twice. -/
@[simp] theorem quad_set_set {α : Type} (q : Quad α) (i : Fin 4) (a b : α) : (q.set i a).set i b = q.set i b := by
  match i with
  | 0 => rfl
  | 1 => rfl
  | 2 => rfl
  | 3 => rfl

/-- A context replaced twice. -/
@[simp] theorem setFeedCtx_setFeedCtx (f : Fin 4) (a b : Feed) (s : State) : setFeedCtx f b (setFeedCtx f a s) = setFeedCtx f b s := by
  simp [setFeedCtx]

/-- The contexts after a code has been formed afresh. -/
theorem feed_refreshHealth (f g : Fin 4) (s : State) :
    feed (refreshHealth f s) g = if f = g then { feed s f with health := healthOf (feed s f) } else feed s g := by
  have k : ∀ x : State, ∀ l : Link, ∀ h : Health, feed (latchHealth l f h x) g = feed x g := by
    intro x l h
    simp [feed]
  have k2 : ∀ x : State, feed (postBoth .feedAlert x) g = feed x g := by
    intro x
    simp [feed]
  unfold refreshHealth
  dsimp only
  split
  · rename_i h
    split
    · rename_i e
      subst e
      rw [h]
    · rfl
  · split
    · rw [k2, k, k, feed_setFeedCtx]
    · rw [k, k, feed_setFeedCtx]

/-- What both links are told when a feed's code is formed afresh (R181, R182). -/
theorem refreshHealth_told (f : Fin 4) (s : State) :
    HealthTold f (feed s f).health (healthOf (feed s f)) s.reporter (refreshHealth f s).reporter ∧
      HealthTold f (feed s f).health (healthOf (feed s f)) s.bench (refreshHealth f s).bench := by
  unfold refreshHealth HealthTold
  dsimp only
  generalize healthOf (feed s f) = h
  have hc : (h = .receiverAbsent ∨ h = .stalled ∨ h = .outOfStep) ↔ h.code ≤ 2 := by cases h <;> decide
  refine ⟨⟨fun e => by simp [e], fun e => ?_⟩, fun e => by simp [e], fun e => ?_⟩
  all_goals
    rw [if_neg e]
    simp only [hc]
    split <;> simp [latchHealth, postBoth, post, State.link, State.setLink, setFeedCtx, urgent] <;> rfl

/-- The contexts after every low water has been lifted. -/
theorem feed_liftLowWaters (g : Fin 4) (s : State) :
    feed (liftLowWaters s) g = { feed s g with lowWater := Nat.max (feed s g).lowWater (oldestHeld s.lines) } := by
  simp [feed, liftLowWaters]

/-! ## What no choice changes -/

/-- What no choice changes in a context: state, the five configured values, bench hold, receiver seen, OUT_OF_STEP, the idle timer and its
due mark. -/
def Feed.steady (c : Feed) : Feed :=
  { c with lowWater := 0, announced := 0, withheld := false, edits := [], flight := none, stallTimer := none, test := none
           health := .notEnabled }

/-- That part of a context is as it was. -/
def SameFeed (a b : Feed) : Prop := b.steady = a.steady

/-- The gate and, of every context, what no choice changes. -/
def FeedsKept (s t : State) : Prop := t.feeds.gate = s.feeds.gate ∧ ∀ g, SameFeed (feed s g) (feed t g)

theorem SameFeed.refl (a : Feed) : SameFeed a a := Eq.refl a.steady

theorem SameFeed.trans {a b c : Feed} (h1 : SameFeed a b) (h2 : SameFeed b c) : SameFeed a c := Eq.trans h2 h1

theorem SameFeed.state {a b : Feed} (h : SameFeed a b) : b.state = a.state := congrArg (·.state) h

theorem SameFeed.benchHold {a b : Feed} (h : SameFeed a b) : b.benchHold = a.benchHold := congrArg (·.benchHold) h

theorem SameFeed.seen {a b : Feed} (h : SameFeed a b) : b.seen = a.seen := congrArg (·.seen) h

theorem SameFeed.outOfStep {a b : Feed} (h : SameFeed a b) : b.outOfStep = a.outOfStep := congrArg (·.outOfStep) h

theorem SameFeed.idleTimer {a b : Feed} (h : SameFeed a b) : b.idleTimer = a.idleTimer := congrArg (·.idleTimer) h

theorem FeedsKept.of_eq {s t : State} (h : t.feeds = s.feeds) : FeedsKept s t :=
  ⟨by rw [h], fun g => by simp only [feed, h]; exact .refl _⟩

theorem FeedsKept.trans {s t u : State} (h1 : FeedsKept s t) (h2 : FeedsKept t u) : FeedsKept s u :=
  ⟨h2.1.trans h1.1, fun g => (h1.2 g).trans (h2.2 g)⟩

/-- The same, told from the end. -/
theorem FeedsKept.after {s t u : State} (h2 : FeedsKept t u) (h1 : FeedsKept s t) : FeedsKept s u := h1.trans h2

theorem setFeedCtx_kept (f : Fin 4) (c : Feed) (s : State) (h : SameFeed (feed s f) c) : FeedsKept s (setFeedCtx f c s) :=
  ⟨rfl, fun g => by
    rw [feed_setFeedCtx]
    split
    · rename_i e
      subst e
      exact h
    · exact .refl _⟩

theorem refreshHealth_kept (f : Fin 4) (s : State) : FeedsKept s (refreshHealth f s) := by
  refine ⟨?_, fun g => ?_⟩
  · unfold refreshHealth
    dsimp only
    repeat' split
    all_goals simp [setFeedCtx]
  · rw [feed_refreshHealth]
    split
    · rename_i e
      subst e
      exact .refl _
    · exact .refl _

theorem liftLowWaters_kept (s : State) : FeedsKept s (liftLowWaters s) :=
  ⟨rfl, fun g => by rw [feed_liftLowWaters]; exact .refl _⟩

theorem removeDone_kept (s : State) : FeedsKept s (removeDone s) := (FeedsKept.of_eq rfl).trans (liftLowWaters_kept _)

theorem setFlight_kept (f : Fin 4) (fr : FeedFrame) (s : State) : FeedsKept s (setFlight f fr s) := setFeedCtx_kept _ _ _ (.refl _)

theorem writeSent_kept (f : Fin 4) (l : Line) (s : State) : FeedsKept s (writeSent f l s) := .of_eq rfl

theorem writeWithdrawSent_kept (f : Fin 4) (l : Line) (s : State) : FeedsKept s (writeWithdrawSent f l s) :=
  (FeedsKept.of_eq rfl).trans (removeDone_kept _)

theorem startFrame_kept (f : Fin 4) (d : Due) (s : State) : FeedsKept s (startFrame f d s) := by
  unfold startFrame
  cases d with
  | update l q => exact .after (writeSent_kept _ _ _) (setFeedCtx_kept _ _ _ (.refl _))
  | line l => exact .after (refreshHealth_kept _ _) (.after (writeSent_kept _ _ _) (setFeedCtx_kept _ _ _ (.refl _)))
  | withdraw l => exact .after (writeWithdrawSent_kept _ _ _) (setFlight_kept _ _ _)
  | withheld l => exact .after (refreshHealth_kept _ _) (setFeedCtx_kept _ _ _ (.refl _))
  | idle => exact setFlight_kept _ _ _
  | test =>
    dsimp only
    split
    · exact .of_eq rfl
    · exact setFeedCtx_kept _ _ _ (.refl _)

theorem actOn_kept (f : Fin 4) (d : Due) (s : State) : FeedsKept s (actOn f d s) := by
  unfold actOn
  split
  · exact startFrame_kept _ _ _
  · exact setFeedCtx_kept _ _ _ (.refl _)

theorem raiseLow_kept (f : Fin 4) (s : State) : FeedsKept s (raiseLow f s) := setFeedCtx_kept _ _ _ (.refl _)

theorem chooseLive_kept (f : Fin 4) (s : State) : FeedsKept s (chooseLive f s) := by
  unfold chooseLive
  dsimp only
  split
  · exact .after (raiseLow_kept _ _) (.after (actOn_kept _ _ _) (setFeedCtx_kept _ _ _ (.refl _)))
  · exact .after (raiseLow_kept _ _) (setFeedCtx_kept _ _ _ (.refl _))

/-- A choice changes no feed's state, configured values, hold, receiver seen, OUT_OF_STEP or idle timer. -/
theorem choose_kept (f : Fin 4) (s : State) : FeedsKept s (choose f s) := by
  unfold choose
  dsimp only
  repeat' split
  all_goals first | exact .of_eq rfl | exact chooseLive_kept _ _ | exact actOn_kept _ _ _

theorem chooseAll_kept (s : State) : FeedsKept s (chooseAll s) := by
  unfold chooseAll
  generalize allFeeds = l
  induction l generalizing s with
  | nil => exact .of_eq rfl
  | cons a l ih => exact (choose_kept a s).trans (ih _)

/-! ## No feed shows a restricted text (R156) -/

/-- One context holds to R156: OFF with nothing in flight, and no text in flight its audience may not see. -/
def LeakFree (c : Feed) : Prop :=
  (c.state = .off → c.flight = none) ∧ ∀ fr, c.flight = some fr → ∀ k, fr.textClass = some k → mayShow c.audience k

/-- A state holds to R156 when each context does. -/
theorem noLeak_iff (s : State) : NoLeak s ↔ ∀ f, LeakFree (feed s f) := Iff.rfl

/-- A class visible to an audience is one it may be shown. -/
theorem mayShow_of_visible (a : Audience) (k : Cls) (h : visible a k = true) : mayShow a k := by
  cases a <;> cases k <;> simp_all [visible, mayShow]

theorem noLeak_of_feeds {s t : State} (h : t.feeds = s.feeds) (hs : NoLeak s) : NoLeak t := by
  intro f
  have e : feed t f = feed s f := by simp only [feed, h]
  rw [e]
  exact hs f

theorem setFeedCtx_noLeak (f : Fin 4) (c : Feed) (s : State) (hc : LeakFree c) (hs : NoLeak s) : NoLeak (setFeedCtx f c s) := by
  intro g
  rw [feed_setFeedCtx]
  split
  · exact hc
  · exact hs g

/-- A context with the same state, audience and frame in flight holds to R156 as well. -/
theorem LeakFree.congr {c d : Feed} (h : LeakFree c) (h1 : d.state = c.state) (h2 : d.audience = c.audience) (h3 : d.flight = c.flight) :
    LeakFree d := by
  unfold LeakFree at *
  rw [h1, h2, h3]
  exact h

theorem refreshHealth_noLeak (f : Fin 4) (s : State) (hs : NoLeak s) : NoLeak (refreshHealth f s) := by
  intro g
  rw [feed_refreshHealth]
  split
  · exact LeakFree.congr (hs f) rfl rfl rfl
  · exact hs g

theorem liftLowWaters_noLeak (s : State) (hs : NoLeak s) : NoLeak (liftLowWaters s) := by
  intro g
  rw [feed_liftLowWaters]
  exact LeakFree.congr (hs g) rfl rfl rfl

theorem setRecords_noLeak (rs : List Line) (s : State) (hs : NoLeak s) : NoLeak (setRecords rs s) := noLeak_of_feeds rfl hs

theorem removeDone_noLeak (s : State) (hs : NoLeak s) : NoLeak (removeDone s) := liftLowWaters_noLeak _ (setRecords_noLeak _ _ hs)

/-- The text a frame due would carry is one the audience may see. -/
def DueShown (a : Audience) : Due → Prop
  | .update l _ => visible a l.cls = true
  | .line l => visible a l.cls = true
  | _ => True

/-- A frame with nothing restricted in it may start on a feed that is not OFF. -/
theorem LeakFree.withFlight {c d : Feed} (hne : c.state ≠ .off) (fr : FeedFrame)
    (hf : ∀ k, fr.textClass = some k → mayShow c.audience k) (h1 : d.state = c.state) (h2 : d.audience = c.audience)
    (h3 : d.flight = some fr) : LeakFree d := by
  refine ⟨fun e => absurd (h1 ▸ e) hne, fun fr' e k hk => ?_⟩
  rw [h3] at e
  cases e
  rw [h2]
  exact hf k hk

theorem startFrame_noLeak (f : Fin 4) (d : Due) (s : State) (hs : NoLeak s) (hne : (feed s f).state ≠ .off)
    (hd : DueShown (feed s f).audience d) : NoLeak (startFrame f d s) := by
  have none : ∀ fr : FeedFrame, fr.textClass = .none → ∀ k, fr.textClass = some k → mayShow (feed s f).audience k := by
    intro fr h k hk
    rw [h] at hk
    cases hk
  unfold startFrame
  cases d with
  | update l q =>
    refine setRecords_noLeak _ _ (setFeedCtx_noLeak _ _ _ ?_ hs)
    exact LeakFree.withFlight (c := feed s f) hne (textFrame true l) (fun k hk => by cases hk; exact mayShow_of_visible _ _ hd) rfl rfl rfl
  | line l =>
    refine refreshHealth_noLeak _ _ (setRecords_noLeak _ _ (setFeedCtx_noLeak _ _ _ ?_ hs))
    exact LeakFree.withFlight (c := feed s f) hne (textFrame false l) (fun k hk => by cases hk; exact mayShow_of_visible _ _ hd) rfl rfl rfl
  | withdraw l =>
    refine removeDone_noLeak _ (setRecords_noLeak _ _ (setFeedCtx_noLeak _ _ _ ?_ hs))
    exact LeakFree.withFlight (c := feed s f) hne _ (none _ rfl) rfl rfl rfl
  | withheld l =>
    refine refreshHealth_noLeak _ _ (setFeedCtx_noLeak _ _ _ ?_ hs)
    exact LeakFree.withFlight (c := feed s f) hne (.withheld l.serial l.page l.line l.cls) (none _ rfl) rfl rfl rfl
  | idle =>
    refine setFeedCtx_noLeak _ _ _ ?_ hs
    exact LeakFree.withFlight (c := feed s f) hne _ (none _ rfl) rfl rfl rfl
  | test =>
    dsimp only
    split
    · exact hs
    · refine setFeedCtx_noLeak _ _ _ ?_ hs
      exact LeakFree.withFlight (c := feed s f) hne (.test _) (none _ rfl) rfl rfl rfl

theorem actOn_noLeak (f : Fin 4) (d : Due) (s : State) (hs : NoLeak s) (hne : (feed s f).state ≠ .off)
    (hd : DueShown (feed s f).audience d) : NoLeak (actOn f d s) := by
  unfold actOn
  split
  · exact startFrame_noLeak _ _ _ hs hne hd
  · exact setFeedCtx_noLeak _ _ _ (LeakFree.congr (hs f) rfl rfl rfl) hs

/-- The edit queue yields a visible line. -/
theorem serveEdits_visible (a : Audience) (rs : List Line) (q : List Nat) (l : Line) (h : (serveEdits a rs q).2 = some l) :
    visible a l.cls = true := by
  induction q with
  | nil => simp [serveEdits] at h
  | cons n ns ih =>
    unfold serveEdits at h
    split at h
    · split at h
      · rename_i hv
        simp only [Option.some.injEq] at h
        subst h
        exact hv
      · exact ih h
    · exact ih h

/-- The scan yields no restricted text. -/
theorem scan_shown (f : Fin 4) (a : Audience) (low : Nat) (rs : List Line) (p : Option Line) (n : Nat) (d : Due)
    (h : (scan f a low rs p n).2 = some d) : DueShown a d := by
  induction rs generalizing p n with
  | nil => simp [scan] at h
  | cons l ls ih =>
    unfold scan at h
    dsimp only at h
    split at h
    · exact ih _ _ h
    · split at h
      · rename_i e
        simp only [Option.some.injEq] at h
        subst h
        revert e
        unfold lookAt
        repeat' split
        all_goals
          intro e
          simp only [Look.due.injEq, reduceCtorEq] at e
        all_goals
          subst e
          trivial
      · exact ih _ _ h
      · exact ih _ _ h

theorem liveChoice_shown (s : State) (f : Fin 4) (d : Due) (h : (liveChoice s f).2.2 = some d) : DueShown (feed s f).audience d := by
  unfold liveChoice at h
  dsimp only at h
  split at h
  · rename_i l e
    simp only [Option.some.injEq] at h
    subst h
    exact serveEdits_visible _ _ _ _ e
  · split at h
    · rename_i e
      simp only [Option.some.injEq] at h
      subst h
      exact scan_shown _ _ _ _ _ _ _ e
    · split at h
      · simp only [Option.some.injEq] at h
        subst h
        trivial
      · cases h

theorem raiseLow_noLeak (f : Fin 4) (s : State) (hs : NoLeak s) : NoLeak (raiseLow f s) :=
  setFeedCtx_noLeak _ _ _ (LeakFree.congr (hs f) rfl rfl rfl) hs

/-- A choice shows no restricted text. -/
theorem choose_noLeak (f : Fin 4) (s : State) (hs : NoLeak s) : NoLeak (choose f s) := by
  unfold choose
  dsimp only
  split
  · exact hs
  · split
    · rename_i hst
      unfold chooseLive
      dsimp only
      have k : NoLeak (setFeedCtx f { feed s f with edits := (liveChoice s f).1, announced := (liveChoice s f).2.1 } s) :=
        setFeedCtx_noLeak _ _ _ (LeakFree.congr (hs f) rfl rfl rfl) hs
      split
      · rename_i d e
        refine raiseLow_noLeak _ _ (actOn_noLeak _ _ _ k ?_ ?_)
        · rw [feed_setFeedCtx_self]
          simp [hst]
        · rw [feed_setFeedCtx_self]
          exact liveChoice_shown s f d e
      · exact raiseLow_noLeak _ _ k
    · rename_i hst
      split
      · exact actOn_noLeak _ _ _ hs (by simp [hst]) trivial
      · exact hs
    · rename_i hst
      split
      · split
        · exact actOn_noLeak _ _ _ hs (by simp [hst]) trivial
        · exact hs
      · exact hs
    · exact hs

/-- A fold of operations that hold to R156 holds to it. -/
theorem foldl_noLeak {α : Type} (g : State → α → State) (hg : ∀ s a, NoLeak s → NoLeak (g s a)) (l : List α) (s : State) (hs : NoLeak s) :
    NoLeak (l.foldl g s) := by
  induction l generalizing s with
  | nil => exact hs
  | cons a l ih => exact ih _ (hg s a hs)

theorem chooseAll_noLeak (s : State) (hs : NoLeak s) : NoLeak (chooseAll s) := foldl_noLeak _ (fun s f h => choose_noLeak f s h) _ _ hs

theorem editNotice_noLeak (n : Nat) (s : State) (hs : NoLeak s) : NoLeak (editNotice n s) := by
  refine foldl_noLeak _ (fun s f h => ?_) _ _ hs
  unfold takeEdit
  dsimp only
  split
  · exact refreshHealth_noLeak _ _ (setFeedCtx_noLeak _ _ _ (LeakFree.congr (h f) rfl rfl rfl) h)
  · exact h

theorem reclaimFeeds_noLeak (rs : List Line) (l : Line) (s : State) (hs : NoLeak s) : NoLeak (reclaimFeeds rs l s) := by
  refine foldl_noLeak _ (fun s f h => ?_) _ _ hs
  unfold takeReclaim
  dsimp only
  split
  · exact refreshHealth_noLeak _ _ (setFeedCtx_noLeak _ _ _ (LeakFree.congr (h f) rfl rfl rfl) h)
  · exact h

theorem becomeOff_noLeak (f : Fin 4) (s : State) (hs : NoLeak s) : NoLeak (becomeOff f s) :=
  refreshHealth_noLeak _ _ (removeDone_noLeak _ (setRecords_noLeak _ _
    (setFeedCtx_noLeak _ _ _ ⟨fun _ => rfl, fun _ h => by simp at h⟩ hs)))

theorem endTest_noLeak (f : Fin 4) (o : TestOutcome) (s : State) (hs : NoLeak s) : NoLeak (endTest f o s) := by
  unfold endTest
  refine noLeak_of_feeds (s := becomeOff f (setFeedCtx f { feed s f with
    test := (feed s f).test.map (fun t => { t with outcome := o }) } s)) (by simp) (becomeOff_noLeak _ _ ?_)
  exact setFeedCtx_noLeak _ _ _ (LeakFree.congr (hs f) rfl rfl rfl) hs

/-- A feed that is not OFF changes to another state that is not OFF. -/
theorem LeakFree.withState {c d : Feed} (h : LeakFree c) (h1 : d.state ≠ .off) (h2 : d.audience = c.audience) (h3 : d.flight = c.flight) :
    LeakFree d :=
  ⟨fun e => absurd e h1, fun fr e => by rw [h3] at e; rw [h2]; exact h.2 fr e⟩

theorem enterByHold_noLeak (f : Fin 4) (s : State) (hs : NoLeak s) : NoLeak (enterByHold f s) := by
  refine setFeedCtx_noLeak _ _ _ (LeakFree.withState (c := feed s f) (hs f) ?_ rfl rfl) hs
  dsimp only
  split <;> simp

theorem holdChanged_noLeak (f : Fin 4) (s : State) (hs : NoLeak s) : NoLeak (holdChanged f s) := by
  have k := choose_noLeak f _ (refreshHealth_noLeak f _ (enterByHold_noLeak f s hs))
  unfold holdChanged
  repeat' split
  all_goals first | exact hs | exact k

theorem feedsAtOpen_noLeak (s : State) (hs : NoLeak s) : NoLeak (feedsAtOpen s) := by
  refine foldl_noLeak _ (fun s f h => ?_) _ _ hs
  have k := refreshHealth_noLeak f _ (setFeedCtx_noLeak f
    { feed s f with lowWater := 1, announced := 0, edits := [], withheld := false, outOfStep := false } s
    (LeakFree.congr (h f) rfl rfl rfl) h)
  unfold feedAtOpen
  dsimp only
  split
  all_goals first | exact k | exact h

/-! ## Lines and translation -/

theorem reclaim_noLeak (s : State) (hs : NoLeak s) : NoLeak (reclaim s) := by
  unfold reclaim
  split
  · exact hs
  · rename_i l _
    refine liftLowWaters_noLeak _ (noLeak_of_feeds (s := reclaimFeeds s.lines.records l
      (setRecords (s.lines.records.filter (fun x => x.serial ≠ l.serial)) s)) (by simp) (reclaimFeeds_noLeak _ _ _ ?_))
    exact setRecords_noLeak _ _ hs

theorem openNew_noLeak (c : Cls) (s : State) (hs : NoLeak s) : NoLeak (openNew c s) := by
  unfold openNew
  dsimp only
  split
  · exact noLeak_of_feeds (s := reclaim s) rfl (reclaim_noLeak s hs)
  · exact noLeak_of_feeds rfl hs

theorem closeOpen_noLeak (s : State) (hs : NoLeak s) : NoLeak (closeOpen s).1 := noLeak_of_feeds (by simp) hs

theorem layChars_noLeak (r : PlaceReq) (cs : List Byte) (y : Laying) (hs : NoLeak y.s) : NoLeak (layChars r cs y).s := by
  unfold layChars
  repeat' split
  all_goals exact hs

theorem layOpen_noLeak (r : PlaceReq) (o : Opening) (y : Laying) (hs : NoLeak y.s) : NoLeak (layOpen r o y).s := by
  unfold layOpen
  split
  · exact hs
  · exact openNew_noLeak _ _ hs

theorem layWrap_noLeak (r : PlaceReq) (y : Laying) (hs : NoLeak y.s) : NoLeak (layWrap r y).s :=
  layOpen_noLeak r .wrap { y with s := (closeOpen y.s).1, settled := y.settled ++ (closeOpen y.s).2 } (closeOpen_noLeak _ hs)

theorem layWord_noLeak (r : PlaceReq) (n : Nat) (w : List Byte) (y : Laying) (hs : NoLeak y.s) : NoLeak (layWord r n w y).s := by
  induction n generalizing w y with
  | zero => exact hs
  | succ n ih =>
    unfold layWord
    dsimp only
    repeat' split
    · exact hs
    · exact layChars_noLeak _ _ _ hs
    · exact ih _ _ (layWrap_noLeak _ _ hs)
    · exact ih _ _ (layWrap_noLeak _ _ (layChars_noLeak _ _ _ hs))

theorem layInLine_noLeak (r : PlaceReq) (t : Token) (y : Laying) (hs : NoLeak y.s) : NoLeak (layInLine r t y).s := by
  unfold layInLine
  dsimp only
  repeat' split
  · exact layChars_noLeak _ _ _ hs
  · exact layChars_noLeak _ _ _ hs
  · exact layWord_noLeak _ _ _ _ (layWrap_noLeak _ _ hs)
  · exact layWord_noLeak _ _ _ _ (layChars_noLeak _ _ _ hs)

theorem layToken_noLeak (r : PlaceReq) (y : Laying) (t : Token) (hs : NoLeak y.s) : NoLeak (layToken r y t).s := by
  unfold layToken
  dsimp only
  split
  · exact hs
  · have k : NoLeak (if y.s.lines.openLine.isSome then y else layOpen r .forced y).s := by
      split
      · exact hs
      · exact layOpen_noLeak _ _ _ hs
    generalize (if y.s.lines.openLine.isSome then y else layOpen r .forced y) = y1 at k ⊢
    split
    · exact k
    · exact layInLine_noLeak _ _ _ k

theorem layTokens_noLeak (r : PlaceReq) (ts : List Token) (y : Laying) (hs : NoLeak y.s) : NoLeak (ts.foldl (layToken r) y).s := by
  induction ts generalizing y with
  | nil => exact hs
  | cons t ts ih => exact ih _ (layToken_noLeak r y t hs)

theorem place_noLeak (r : PlaceReq) (s : State) (hs : NoLeak s) : NoLeak (place r s).s := by
  unfold place
  dsimp only
  refine layTokens_noLeak r _ _ ?_
  dsimp only
  refine noLeak_of_feeds ?_ hs
  split <;> simp

theorem placeFormed_noLeak (u : Formed) (s : State) (hs : NoLeak s) : NoLeak (placeFormed u s).s := by
  unfold placeFormed
  split
  · exact noLeak_of_feeds (by simp) hs
  · exact place_noLeak _ _ hs

theorem placeUnit_noLeak (keep : Bool) (u : Formed) (s : State) (hs : NoLeak s) : NoLeak (placeUnit keep u s) :=
  noLeak_of_feeds (s := (placeFormed u s).s) rfl (placeFormed_noLeak u s hs)

theorem pass_noLeak (flush keep : Bool) (n : Nat) (s : State) (hs : NoLeak s) : NoLeak (pass flush keep n s) := by
  induction n generalizing s with
  | zero => exact hs
  | succ n ih =>
    unfold pass
    dsimp only
    repeat' split
    · exact hs
    · exact hs
    · exact ih _ (placeUnit_noLeak _ _ _ (noLeak_of_feeds rfl hs))

theorem setTimer_noLeak (b : List TStroke) (s : State) (hs : NoLeak s) : NoLeak (setTimer b s) := noLeak_of_feeds (by simp) hs

theorem withdrawLines_noLeak (p : Nat → Bool) (s : State) (hs : NoLeak s) : NoLeak (withdrawLines p s) := by
  unfold withdrawLines
  split
  · exact hs
  · exact removeDone_noLeak _ (noLeak_of_feeds rfl hs)

theorem retract_noLeak (p : Placement) (s : State) (hs : NoLeak s) : NoLeak (retract p s) := by
  unfold retract retractInside retractWhole
  dsimp only
  repeat' split
  all_goals first
    | exact noLeak_of_feeds (s := withdrawLines (fun n => decide (p.serial < n)) s) rfl (withdrawLines_noLeak _ _ hs)
    | exact noLeak_of_feeds (s := withdrawLines (fun n => decide (p.serial ≤ n)) s) rfl (withdrawLines_noLeak _ _ hs)

theorem flushComplete_noLeak (s : State) (hs : NoLeak s) : NoLeak (flushComplete s) := noLeak_of_feeds (by simp) hs

theorem retractUnit_noLeak (u : TUnit) (s : State) (hs : NoLeak s) : NoLeak (retractUnit u s) := by
  unfold retractUnit
  dsimp only
  refine setTimer_noLeak _ _ (pass_noLeak _ _ _ _ ?_)
  split
  · rename_i p _
    exact noLeak_of_feeds (s := retract p s) rfl (retract_noLeak p s hs)
  · exact noLeak_of_feeds rfl hs

theorem takeStroke_noLeak (k : Stroke) (s : State) (hs : NoLeak s) : NoLeak (takeStroke k s) := by
  unfold takeStroke takeCorrection
  repeat' split
  · exact setTimer_noLeak _ _ (pass_noLeak _ _ _ _ (noLeak_of_feeds rfl hs))
  · exact retractUnit_noLeak _ _ hs
  · exact noLeak_of_feeds (by simp) hs
  · exact setTimer_noLeak _ _ (pass_noLeak _ _ _ _ (noLeak_of_feeds rfl hs))
  · exact noLeak_of_feeds (by simp) hs
  · exact flushComplete_noLeak _ (setTimer_noLeak _ _ (pass_noLeak _ _ _ _ (noLeak_of_feeds rfl hs)))

theorem takeAllHanded_noLeak (n : Nat) (s : State) (hs : NoLeak s) : NoLeak (takeAllHanded n s) := by
  induction n generalizing s with
  | zero => exact hs
  | succ n ih =>
    unfold takeAllHanded
    split
    · exact hs
    · exact ih _ (takeStroke_noLeak _ _ (noLeak_of_feeds rfl hs))

theorem leaveLive_noLeak (c : Bool) (s : State) (hs : NoLeak s) : NoLeak (leaveLive c s) := by
  unfold leaveLive
  exact flushComplete_noLeak _ (noLeak_of_feeds (s := flushPass s) rfl (pass_noLeak _ _ _ _ hs))

end Sys2Proof.Machine
end

