-- ==== Sys2Proof/Laws/Lines.lean ====
section
/-! SUPPORT. The line records: what the feeds' choices leave of them, what the placing of one word and a withdrawal do to the Line Store, and
a pass that forms one unit. -/

namespace Sys2Proof.Machine

/-! ## What the feeds record -/

/-- A line record but for what a feed records in it (R166). -/
def Line.body (l : Line) : Line := { l with sent := Quad.const 0, withdrawSent := Quad.const false }

/-- Records as the feeds leave them: each holds all but what a feed records in it, and only WITHDRAWN ones have left the store (R134, R166). -/
def FedFrom (rs rs' : List Line) : Prop :=
  ∃ h : Line → Option Line, rs' = rs.filterMap h ∧ (∀ l, h l = none → l.state = .withdrawn) ∧ ∀ l x, h l = some x → x.body = l.body

/-- Two records of one body agree in every field that no feed records. -/
theorem Line.body_inj {x l : Line} (h : x.body = l.body) :
    x.serial = l.serial ∧ x.page = l.page ∧ x.line = l.line ∧ x.cls = l.cls ∧ x.state = l.state ∧ x.revision = l.revision ∧
      x.text = l.text ∧ x.range = l.range ∧ x.edited = l.edited ∧ x.runs = l.runs :=
  ⟨congrArg (·.serial) h, congrArg (·.page) h, congrArg (·.line) h, congrArg (·.cls) h, congrArg (·.state) h, congrArg (·.revision) h,
    congrArg (·.text) h, congrArg (·.range) h, congrArg (·.edited) h, congrArg (·.runs) h⟩

theorem FedFrom.refl (rs : List Line) : FedFrom rs rs :=
  ⟨some, by simp, by simp, by rintro l x ⟨⟩; rfl⟩

theorem FedFrom.of_eq {rs rs' : List Line} (h : rs' = rs) : FedFrom rs rs' := h ▸ .refl rs

theorem FedFrom.trans {a b c : List Line} (h1 : FedFrom a b) (h2 : FedFrom b c) : FedFrom a c := by
  obtain ⟨f, rfl, f1, f2⟩ := h1
  obtain ⟨g, rfl, g1, g2⟩ := h2
  refine ⟨fun l => (f l).bind g, List.filterMap_filterMap, fun l e => ?_, fun l x e => ?_⟩
  · cases hf : f l with
    | none => exact f1 l hf
    | some y => exact (Line.body_inj (f2 l y hf)).2.2.2.2.1 ▸ g1 y (by simpa [hf] using e)
  · obtain ⟨y, hf, hg⟩ := Option.bind_eq_some_iff.mp e
    exact (g2 y x hg).trans (f2 l y hf)

/-- Records updated by what a feed records. -/
theorem FedFrom.map (g : Line → Line) (hg : ∀ l, (g l).body = l.body) (rs : List Line) : FedFrom rs (rs.map g) :=
  ⟨fun l => some (g l), (List.filterMap_eq_map' (f := g)).symm ▸ rfl, by simp, by rintro l x ⟨⟩; exact hg l⟩

/-- Every record comes from one of the same body. -/
theorem FedFrom.from_old {rs rs' : List Line} (h : FedFrom rs rs') : ∀ x ∈ rs', ∃ y ∈ rs, x.body = y.body := by
  obtain ⟨f, rfl, -, f2⟩ := h
  intro x hx
  obtain ⟨y, hy, e⟩ := List.mem_filterMap.mp hx
  exact ⟨y, hy, f2 y x e⟩

/-- Every record but a WITHDRAWN one is still there. -/
theorem FedFrom.still_there {rs rs' : List Line} (h : FedFrom rs rs') : ∀ y ∈ rs, y.state ≠ .withdrawn → ∃ x ∈ rs', x.body = y.body := by
  obtain ⟨f, rfl, f1, f2⟩ := h
  intro y hy hw
  cases e : f y with
  | none => exact absurd (f1 y e) hw
  | some x => exact ⟨x, List.mem_filterMap.mpr ⟨y, hy, e⟩, f2 y x e⟩

/-- The record of a serial is found as before, but for what the feeds record. -/
theorem FedFrom.find {rs rs' : List Line} (h : FedFrom rs rs') {n : Nat} {l : Line} (e : findLine rs n = some l)
    (hw : l.state ≠ .withdrawn) : ∃ x, findLine rs' n = some x ∧ x.body = l.body := by
  obtain ⟨f, rfl, f1, f2⟩ := h
  unfold findLine at *
  induction rs with
  | nil => simp at e
  | cons y ys ih =>
    by_cases hy : y.serial = n
    · obtain rfl : y = l := by simpa [List.find?_cons, hy] using e
      cases k : f y with
      | none => exact absurd (f1 y k) hw
      | some x => exact ⟨x, by simp [k, (Line.body_inj (f2 y x k)).1, hy], f2 y x k⟩
    · obtain ⟨x, h1, h2⟩ := ih (by simpa [List.find?_cons, hy] using e)
      refine ⟨x, ?_, h2⟩
      cases k : f y with
      | none => simpa [List.filterMap_cons, k] using h1
      | some z => simpa [List.filterMap_cons, k, List.find?_cons, (Line.body_inj (f2 y z k)).1, hy] using h1

/-- A serial of no record stays one. -/
theorem FedFrom.find_none {rs rs' : List Line} (h : FedFrom rs rs') {n : Nat} (e : findLine rs n = none) : findLine rs' n = none := by
  simp only [findLine, List.find?_eq_none] at *
  intro x hx
  obtain ⟨y, hy, b⟩ := h.from_old x hx
  simpa [(Line.body_inj b).1] using e y hy

/-! ## The feeds' choices -/

/-- Only what the feeds record has changed in the Line Store. -/
def LinesFed (s t : State) : Prop := FedFrom s.lines.records t.lines.records ∧ t.lines = { s.lines with records := t.lines.records }

theorem LinesFed.of_eq {s t : State} (h : t.lines = s.lines) : LinesFed s t := by
  unfold LinesFed
  rw [h]
  exact ⟨.refl _, rfl⟩

theorem LinesFed.trans {s t u : State} (h1 : LinesFed s t) (h2 : LinesFed t u) : LinesFed s u :=
  ⟨h1.1.trans h2.1, by rw [h2.2, h1.2]⟩

/-- Where only the feeds have recorded, no text has changed (R111, R134, R166). -/
theorem LinesFed.textKept {s t : State} (h : LinesFed s t) : TextKept s t := by
  refine ⟨by rw [h.2], by rw [h.2], by rw [h.2], by rw [h.2], fun x hx => ?_, fun y hy hw => ?_⟩
  · obtain ⟨y, hy, e⟩ := h.1.from_old x hx
    exact ⟨y, hy, by simp [Line.body_inj e]⟩
  · obtain ⟨x, hx, e⟩ := h.1.still_there y hy hw
    exact ⟨x, hx, by simp [Line.body_inj e]⟩

theorem removeDone_fed (s : State) : LinesFed s (removeDone s) := by
  refine ⟨⟨fun l => if withdrawalDone l then none else some l, ?_, fun l h => ?_, fun l x h => ?_⟩, by simp [removeDone, liftLowWaters, setRecords]⟩
  · simp only [removeDone, liftLowWaters, setRecords]
    induction s.lines.records with
    | nil => rfl
    | cons y ys ih => by_cases e : withdrawalDone y <;> simp [e, ih]
  · by_cases e : withdrawalDone l
    · simp [withdrawalDone] at e
      exact e.1
    · simp [e] at h
  · by_cases e : withdrawalDone l
    · simp [e] at h
    · simp [e] at h
      rw [h]

theorem setRecords_fed (n : Nat) (g : Line → Line) (hg : ∀ l, (g l).body = l.body) (s : State) :
    LinesFed s (setRecords (updateLine n g s.lines.records) s) :=
  ⟨.map _ (fun l => by split <;> simp [hg]) _, rfl⟩

theorem writeSent_fed (f : Fin 4) (l : Line) (s : State) : LinesFed s (writeSent f l s) := setRecords_fed _ _ (by simp [Line.body]) _

theorem writeWithdrawSent_fed (f : Fin 4) (l : Line) (s : State) : LinesFed s (writeWithdrawSent f l s) :=
  (setRecords_fed l.serial (fun x => { x with withdrawSent := x.withdrawSent.set f true }) (by simp [Line.body]) s).trans (removeDone_fed _)

theorem startFrame_fed (f : Fin 4) (d : Due) (s : State) : LinesFed s (startFrame f d s) := by
  unfold startFrame
  cases d with
  | update l q => exact LinesFed.trans (.of_eq (by simp)) (writeSent_fed f l _)
  | line l =>
    refine LinesFed.trans ?_ (.of_eq (refreshHealth_keeps f _).2.2.2.2.2.2.2.1)
    exact LinesFed.trans (.of_eq (by simp)) (writeSent_fed f l _)
  | withdraw l => exact LinesFed.trans (.of_eq (by simp)) (writeWithdrawSent_fed f l _)
  | withheld l => exact .of_eq (by simp)
  | idle => exact .of_eq (by simp)
  | test => dsimp only; split <;> exact .of_eq (by simp)

theorem actOn_fed (f : Fin 4) (d : Due) (s : State) : LinesFed s (actOn f d s) := by
  unfold actOn
  split
  · exact startFrame_fed f d s
  · exact .of_eq (by simp)

theorem choose_fed (f : Fin 4) (s : State) : LinesFed s (choose f s) := by
  unfold choose
  dsimp only
  split
  · exact .of_eq rfl
  · split
    · unfold chooseLive
      dsimp only
      refine LinesFed.trans ?_ (.of_eq (raiseLow_keeps f _).2.2.2.2.2.2.2.1)
      split
      · exact LinesFed.trans (.of_eq (by simp)) (actOn_fed f _ _)
      · exact .of_eq (by simp)
    · split
      · exact actOn_fed f _ s
      · exact .of_eq rfl
    · repeat' split
      all_goals first | exact actOn_fed f _ s | exact .of_eq rfl
    · exact .of_eq rfl

/-- What the feeds' choices leave of the Line Store. -/
theorem chooseAll_fed (s : State) : LinesFed s (chooseAll s) :=
  (((choose_fed 0 s).trans (choose_fed 1 _)).trans (choose_fed 2 _)).trans (choose_fed 3 _)

/-! ## One word placed -/

/-- The record of a serial after its update. -/
theorem findLine_updateLine (n m : Nat) (g : Line → Line) (hg : ∀ l, (g l).serial = l.serial) (rs : List Line) :
    findLine (updateLine n g rs) m = (findLine rs m).map (fun l => if l.serial = n then g l else l) := by
  unfold findLine updateLine
  induction rs with
  | nil => rfl
  | cons y ys ih =>
    have e : (if y.serial = n then g y else y).serial = y.serial := by split <;> simp [hg]
    by_cases h : y.serial = m
    · subst h
      rw [List.map_cons, List.find?_cons_of_pos (by simp [e]), List.find?_cons_of_pos (by simp)]
      rfl
    · simpa [List.find?_cons, e, h] using ih

/-- The record of a serial in a list with one record more. -/
theorem findLine_append_new (rs : List Line) (l : Line) (h : findLine rs l.serial = none) : findLine (rs ++ [l]) l.serial = some l := by
  simp only [findLine] at *
  simp [List.find?_append, h]

/-- A text without spaces is one token (R123). -/
theorem tokensFrom_word (n : Nat) (w cs : List Byte) (h : 0x20#8 ∉ cs) (hne : w ++ cs ≠ []) :
    tokensFrom n w cs = [{ spaces := n, word := w ++ cs }] := by
  induction cs generalizing w with
  | nil => simp at hne; simp [tokensFrom, hne]
  | cons c cs ih =>
    simp at h
    rw [tokensFrom, if_neg (fun e => h.1 e.symm), ih _ h.2 (by simp)]
    simp

/-- A word alone is one token. -/
theorem tokens_word (w : List Byte) (hne : w ≠ []) (h : 0x20#8 ∉ w) : tokens w = [{ spaces := 0, word := w }] :=
  tokensFrom_word 0 [] w h hne

/-- A separator and a word are one token. -/
theorem tokens_sep_word (w : List Byte) (hne : w ≠ []) (h : 0x20#8 ∉ w) : tokens (0x20#8 :: w) = [{ spaces := 1, word := w }] := by
  simpa [tokens, tokensFrom] using tokensFrom_word 1 [] w h hne

/-- A word that fits behind a separator on an open line of its class is appended to that line (R108, R122, R123, R127). -/
theorem place_joins (r : PlaceReq) (s : State) (n : Nat) (l : Line) (hne : r.text ≠ []) (hsp : 0x20#8 ∉ r.text) (hs : r.sep = true)
    (hc : r.closeFirst = false) (ho : s.lines.openLine = some n) (hl : findLine s.lines.records n = some l) (hcls : l.cls = r.cls)
    (hw : l.text.length + 1 + r.text.length ≤ s.lines.width) :
    place r s = {
      s := setRecords (updateLine n (fun x => x.extend (0x20#8 :: r.text) false r.first r.last) s.lines.records) s
      placement := some { serial := n, column := l.text.length, count := r.text.length + 1, opening := .continued }, settled := [] } := by
  have hor : openRecord s = some l := by simp [openRecord, ho, hl]
  have hlen : openLength s = l.text.length := by simp [openLength, hor]
  have hb : closeOtherClass r.cls s = (s, []) := by simp [closeOtherClass, hor, hcls]
  simp [place, hc, hb, hs, ho, tokens_sep_word _ hne hsp, layToken, layInLine, hlen, hw, layChars, spaces, Laying.placement]

/-- The state in which a line is opened: a record has been reclaimed where none was free (R125, R135). -/
def withRoom (s : State) : State := if lineCapacity ≤ s.lines.records.length then reclaim s else s

/-- The record of a line just opened in which one word stands alone (R125, R127). -/
def wordLine (r : PlaceReq) (s : State) : Line :=
  (newLine (s.lines.counter + 1) (takeNumber s.lines) r.cls).extend r.text false r.first r.last

/-- The state in which a line has been opened with one word alone in it: its record stands last in the store (R125, R126, R127). -/
def withWord (r : PlaceReq) (s : State) : State :=
  { s with lines := { s.lines with
      records := s.lines.records ++ [wordLine r s]
      counter := s.lines.counter + 1
      nextPage := (numberAfter s.lines.pageLen (takeNumber s.lines)).1
      nextLine := (numberAfter s.lines.pageLen (takeNumber s.lines)).2
      openLine := some (s.lines.counter + 1) } }

/-- The record of the line just opened. -/
theorem findLine_withWord (r : PlaceReq) (s : State) (h : findLine s.lines.records (s.lines.counter + 1) = none) :
    findLine (withWord r s).lines.records (s.lines.counter + 1) = some (wordLine r s) :=
  findLine_append_new s.lines.records (wordLine r s) h

/-- The other records stand as they stood before the line was opened. -/
theorem findLine_withWord_other (r : PlaceReq) (s : State) (m : Nat) (h : m ≠ s.lines.counter + 1) :
    findLine (withWord r s).lines.records m = findLine s.lines.records m := by
  have e : (wordLine r s).serial = s.lines.counter + 1 := rfl
  simp only [withWord, findLine, List.find?_append]
  rw [List.find?_singleton, if_neg (by simp [e]; omega)]
  simp

/-- A line just opened is empty (R125). -/
theorem openLength_openNew (c : Cls) (s : State) (hnew : findLine (withRoom s).lines.records ((withRoom s).lines.counter + 1) = none) :
    openLength (openNew c s) = 0 := by
  have e := findLine_append_new (withRoom s).lines.records
    (newLine ((withRoom s).lines.counter + 1) (takeNumber (withRoom s).lines) c) hnew
  have h : openRecord (openNew c s) = some (newLine ((withRoom s).lines.counter + 1) (takeNumber (withRoom s).lines) c) := e
  simp [openLength, h, newLine]

/-- The settings of the Line Store are not an opening's to change (R125). -/
theorem openNew_width (c : Cls) (s : State) : (openNew c s).lines.width = s.lines.width := by
  have h : (withRoom s).lines.width = s.lines.width := by
    unfold withRoom reclaim
    split
    · split <;> simp [setRecords]
    · rfl
  exact h

/-- A closing changes the records and the open line alone (R128). -/
theorem closeOpen_numbers (s : State) :
    (closeOpen s).1.lines = { s.lines with records := (closeOpen s).1.lines.records, openLine := none } := by
  unfold closeOpen
  split
  · next h => simp [← h]
  · rfl

/-- A word laid in a line just opened (R123, R125, R127). -/
theorem layChars_new (r : PlaceReq) (y : Laying) (s : State) (hs : y.s = openNew r.cls s) (hy : y.first = none) (hin : y.inLine = false)
    (hne : r.text ≠ []) (hnew : findLine (withRoom s).lines.records ((withRoom s).lines.counter + 1) = none) :
    layChars r r.text y = { y with
      s := withWord r (withRoom s), first := some ((withRoom s).lines.counter + 1, 0, y.opening), placed := y.placed + r.text.length
      inLine := true } := by
  have hopen : openNew r.cls s = { withRoom s with lines := { (withWord r (withRoom s)).lines with
      records := (withRoom s).lines.records ++ [newLine ((withRoom s).lines.counter + 1) (takeNumber (withRoom s).lines) r.cls] } } := rfl
  have hlen : openLength y.s = 0 := hs ▸ openLength_openNew r.cls s hnew
  generalize withRoom s = s1 at *
  have hold : updateLine (s1.lines.counter + 1) (fun l => l.extend r.text false r.first r.last) s1.lines.records = s1.lines.records := by
    simp only [findLine, List.find?_eq_none, decide_eq_true_eq] at hnew
    exact (List.map_congr_left (fun x hx => if_neg (hnew x hx))).trans (List.map_id _)
  have hup : updateLine (s1.lines.counter + 1) (fun l => l.extend r.text y.inLine r.first r.last) y.s.lines.records =
      s1.lines.records ++ [wordLine r s1] := by
    rw [hs, hopen, hin]
    unfold updateLine at hold ⊢
    rw [List.map_append, hold]
    simp [newLine, wordLine]
  have ho : y.s.lines.openLine = some (s1.lines.counter + 1) := by rw [hs, hopen]; rfl
  simp only [layChars, hne, if_false, ho, hy, hlen, hup]
  rw [hs, hopen]
  rfl

/-- A word with no line open, and a serial left: a line is opened FORCED and the word stands alone in it (R108, R122, R123, R125). -/
theorem place_forces (r : PlaceReq) (s : State) (hne : r.text ≠ []) (hsp : 0x20#8 ∉ r.text) (hc : r.closeFirst = false)
    (ho : s.lines.openLine = none) (hw : r.text.length ≤ s.lines.width) (hmax : s.lines.counter < max32)
    (hnew : findLine (withRoom s).lines.records ((withRoom s).lines.counter + 1) = none) :
    place r s = {
      s := withWord r (withRoom s)
      placement := some { serial := (withRoom s).lines.counter + 1, column := 0, count := r.text.length, opening := .forced }
      settled := [] } := by
  have hb : closeOtherClass r.cls s = (s, []) := by simp [closeOtherClass, openRecord, ho]
  have hl : (openNew r.cls s).lines.openLine = some ((withRoom s).lines.counter + 1) := rfl
  have hz := openLength_openNew r.cls s hnew
  have hwd := openNew_width r.cls s
  have hw' : (openNew r.cls s).lines.width = s.lines.width := hwd
  simp only [place, hc, hb, ho, Option.isSome_none, Bool.false_eq_true, and_false, if_false, tokens_word _ hne hsp, List.foldl_cons,
    List.foldl_nil, layToken, layOpen, Nat.not_le.mpr hmax, layInLine, hz, hw', Nat.zero_add, hw, if_true, spaces, List.replicate_zero,
    List.nil_append]
  rw [layChars_new r _ s rfl rfl rfl hne hnew]
  simp [Laying.placement]

/-- A word that finds no room on the open line of its class, and a serial left: the line closes WRAP, and the word stands alone in a line
opened by WRAP (R123, R124, R125, R128). -/
theorem place_wraps (r : PlaceReq) (s s1 : State) (l : Line) (hne : r.text ≠ []) (hsp : 0x20#8 ∉ r.text) (hs : r.sep = true)
    (hc : r.closeFirst = false) (ho : openRecord s = some l) (hcls : l.cls = r.cls) (hpos : l.text ≠ [])
    (hfull : s.lines.width < l.text.length + 1 + r.text.length) (hw : r.text.length ≤ s.lines.width) (hmax : s.lines.counter < max32)
    (hs1 : s1 = (closeOpen s).1) (hnew : findLine (withRoom s1).lines.records ((withRoom s1).lines.counter + 1) = none) :
    place r s = {
      s := withWord r (withRoom s1)
      placement := some { serial := (withRoom s1).lines.counter + 1, column := 0, count := r.text.length, opening := .wrap }
      settled := (closeOpen s).2 } := by
  have hb : closeOtherClass r.cls s = (s, []) := by simp [closeOtherClass, ho, hcls]
  have hlen : openLength s = l.text.length := by simp [openLength, ho]
  have hop : s.lines.openLine.isSome = true := by
    cases e : s.lines.openLine with
    | none => simp [openRecord, e] at ho
    | some n => rfl
  have hpos' : 0 < l.text.length := List.length_pos_iff.mpr hpos
  have hz := openLength_openNew r.cls s1 hnew
  have hcl := closeOpen_numbers s
  have hw' : (openNew r.cls s1).lines.width = s.lines.width := by rw [openNew_width, hs1, hcl]
  have hm : ¬ max32 ≤ s1.lines.counter := by rw [hs1, hcl]; exact Nat.not_le.mpr hmax
  have hno : ¬ l.text.length + 1 + r.text.length ≤ s.lines.width := by omega
  simp only [place, hc, hb, hs, hop, Bool.false_eq_true, and_self, if_false, tokens_sep_word _ hne hsp, List.foldl_cons,
    List.foldl_nil, layToken, layInLine, hlen, hno, hne, hpos', if_true, layWrap, ← hs1, layOpen, hm, layWord, hz, hw', Nat.zero_add, hw]
  rw [layChars_new r _ s1 rfl rfl rfl hne hnew]
  simp [Laying.placement]

/-! ## A retraction -/

/-- What a withdrawal makes of the records: the OPEN and CLOSED lines of the serials named are withdrawn, the others stand, and only WITHDRAWN
records have left the store (R133, R134). -/
theorem withdrawLines_records (p : Nat → Bool) (s : State) :
    FedFrom (s.lines.records.map (fun l => if p l.serial && l.unsettled then l.withdrawn else l)) (withdrawLines p s).lines.records := by
  unfold withdrawLines
  split
  · next h =>
    refine .of_eq (Eq.symm ?_)
    rw [List.find?_eq_none] at h
    exact (List.map_congr_left (fun x hx => if_neg (h x hx))).trans (List.map_id _)
  · exact (removeDone_fed _).1

/-- The numbers after a withdrawal: the next number is that of the first line withdrawn (R133). -/
theorem withdrawLines_numbers (p : Nat → Bool) (s : State) :
    (withdrawLines p s).lines.counter = s.lines.counter ∧
    ((withdrawLines p s).lines.nextPage, (withdrawLines p s).lines.nextLine) =
      match s.lines.records.find? (fun l => p l.serial && l.unsettled) with
      | some l => (l.page, l.line)
      | none => (s.lines.nextPage, s.lines.nextLine) := by
  unfold withdrawLines
  split
  · next h => exact ⟨rfl, by rw [h]⟩
  · next l h => exact ⟨by rw [(removeDone_fed _).2], by rw [(removeDone_fed _).2, h]⟩

/-- A record before a withdrawal that does not name it, found after it. -/
theorem withdrawLines_find (p : Nat → Bool) (s : State) (n : Nat) (l : Line) (hp : p n = false) (h : findLine s.lines.records n = some l)
    (hw : l.state ≠ .withdrawn) : ∃ x, findLine (withdrawLines p s).lines.records n = some x ∧ x.body = l.body := by
  refine (withdrawLines_records p s).find ?_ hw
  unfold findLine at *
  generalize s.lines.records = rs at h
  induction rs with
  | nil => simp at h
  | cons y ys ih =>
    by_cases hy : y.serial = n
    · obtain rfl : y = l := by simpa [hy] using h
      simp [hy, hp]
    · rw [List.map_cons, List.find?_cons_of_neg]
      · exact ih (by simpa [hy] using h)
      · split <;> simp [Line.withdrawn, hy]

/-! ## The steps of a pass -/

/-- The longest front that resolves, where one does (R95, step 3). -/
theorem longestFront_some (d : Dict) (ks : List TStroke) (e : DictEntry) (k n : Nat) (h0 : 0 < k) (hk : k ≤ n)
    (he : (resolve d ((ks.take k).map (·.press))).entry = some e) (hf : ∀ j, k < j → j ≤ n → FrontFails d ks j) :
    longestFront d ks n = some (k, e) := by
  induction n with
  | zero => omega
  | succ n ih =>
    rcases Nat.lt_or_ge n k with h | h
    · obtain rfl : k = n + 1 := by omega
      simp only [longestFront, keyOf, he]
    · have hn : (resolve d (keyOf (ks.take (n + 1)))).entry = none := hf (n + 1) (by omega) (Nat.le_refl _)
      simp only [longestFront, hn]
      exact ih h (fun j h1 h2 => hf j h1 (by omega))

/-- No front resolves (R95, step 4). -/
theorem longestFront_none (d : Dict) (ks : List TStroke) (n : Nat) (hf : ∀ j, 0 < j → j ≤ n → FrontFails d ks j) :
    longestFront d ks n = none := by
  induction n with
  | zero => rfl
  | succ n ih =>
    have hn : (resolve d (keyOf (ks.take (n + 1)))).entry = none := hf (n + 1) (by omega) (Nat.le_refl _)
    simp only [longestFront, hn]
    exact ih (fun j h1 h2 => hf j h1 (by omega))

/-- The longest front that resolves leaves as one unit (R95, step 3; R96). -/
theorem formFront_entry (d : Dict) (ks : List TStroke) (e : DictEntry) (k : Nat) (h0 : 0 < k) (hk : k ≤ ks.length)
    (he : (resolve d ((ks.take k).map (·.press))).entry = some e) (hf : ∀ j, k < j → j ≤ ks.length → FrontFails d ks j) :
    formFront d ks = ({ strokes := ks.take k, kind := .entry, text := e.text, fmt := e.fmt }, ks.drop k) := by
  simp [formFront, longestFront_some d ks e k _ h0 hk he hf]

/-- Where no front resolves the oldest stroke leaves as an untranslate (R95, step 4; R101). -/
theorem formFront_untranslate (d : Dict) (b : TStroke) (bs : List TStroke)
    (hf : ∀ j, 0 < j → j ≤ bs.length + 1 → FrontFails d (b :: bs) j) :
    formFront d (b :: bs) = ({ strokes := [b], kind := .untranslate, text := writtenForm b.press, fmt := Fmt.none }, bs) := by
  simp [formFront, longestFront_none d (b :: bs) _ hf]

/-- A pass that waits leaves everything as it was (R95, step 2). -/
theorem pass_waits (flush keep : Bool) (n : Nat) (s : State) (h : ¬PassGoes s.dict flush s.trans.lookahead) :
    pass flush keep n s = s := by
  cases n with
  | zero => rfl
  | succ n =>
    have hw : flush = false ∧ s.trans.lookahead.length < keyStrokes ∧ extendable s.dict (keyOf s.trans.lookahead) = true := by
      simpa [PassGoes, keyStrokes, keyOf, not_or] using h
    simp [pass, hw]

/-- A pass that does not wait places the unit of the lookahead's front and goes on with what remains (R95). -/
theorem pass_goes (flush keep : Bool) (n : Nat) (s : State) (u : Formed) (rest : List TStroke) (hne : s.trans.lookahead ≠ [])
    (hgo : PassGoes s.dict flush s.trans.lookahead) (hu : formFront s.dict s.trans.lookahead = (u, rest)) :
    pass flush keep (n + 1) s = pass flush keep n (placeUnit keep u (setTrans { s.trans with lookahead := rest } s)) := by
  have hw : ¬(flush = false ∧ s.trans.lookahead.length < keyStrokes ∧ extendable s.dict (keyOf s.trans.lookahead) = true) := by
    rintro ⟨h1, h2, h3⟩
    rcases hgo with h | h | h
    · simp [h1] at h
    · simp only [keyStrokes] at h2; omega
    · simp [keyOf] at h3; simp [h3] at h
  simp only [pass, hne, hw, if_false, hu]

/-! ## A pass that forms one unit -/

/-- A lookahead that resolves whole forms one unit of all its strokes (R95). -/
theorem formFront_whole (d : Dict) (ks : List TStroke) (e : DictEntry) (hne : ks ≠ []) (h : (resolve d (keyOf ks)).entry = some e) :
    formFront d ks = ({ strokes := ks, kind := .entry, text := e.text, fmt := e.fmt }, []) := by
  obtain ⟨n, hn⟩ := Nat.exists_eq_succ_of_ne_zero (mt List.length_eq_zero_iff.mp hne)
  have ht : ks.take (n + 1) = ks := List.take_of_length_le (by omega)
  simp [formFront, hn, longestFront, ht, h, List.drop_of_length_le]

/-- A single stroke that does not resolve forms an untranslate (R95, R101). -/
theorem formFront_single (d : Dict) (k : TStroke) (h : (resolve d [k.press]).entry = none) :
    formFront d [k] = ({ strokes := [k], kind := .untranslate, text := writtenForm k.press, fmt := Fmt.none }, []) := by
  simp [formFront, longestFront, keyOf, h]

/-- A unit pushed and the settlement notices taken after it (R104, R105). -/
theorem historyWith_eq (u : TUnit) (settled : List Nat) (h : List TUnit) :
    historyWith u settled h = settled.foldl (fun us n => prune n us) (pushUnit u h) := by
  have hp : (fun (us : List TUnit) (n : Nat) => us.dropWhile (fun v => decide (∀ a, v.anchor = some a → a ≤ n))) =
      fun us n => prune n us := by
    funext us n
    unfold prune
    congr 1
    funext v
    cases v.anchor <;> simp
  unfold historyWith pushUnit historyCapacity
  rw [hp]

/-- Placing a unit leaves the lookahead alone. -/
theorem placeUnit_lookahead (keep : Bool) (u : Formed) (s : State) : (placeUnit keep u s).trans.lookahead = s.trans.lookahead := by
  simp [placeUnit, takeSettled, setTrans]

/-- The carry state after a unit (R109). -/
theorem placeUnit_carry (keep : Bool) (u : Formed) (s : State) :
    (placeUnit keep u s).trans.carry = carryAfter s.trans.carry u.text u.fmt := by
  simp [placeUnit, takeSettled, setTrans]

/-- A pass whose front is all the lookahead places that one unit and ends (R95, R98). -/
theorem pass_whole (flush keep : Bool) (n : Nat) (s : State) (u : Formed) (hne : s.trans.lookahead ≠ [])
    (hgo : PassGoes s.dict flush s.trans.lookahead)
    (hu : formFront s.dict s.trans.lookahead = (u, [])) :
    pass flush keep (n + 1) s = placeUnit keep u (setTrans { s.trans with lookahead := [] } s) := by
  rw [pass_goes flush keep n s u [] hne hgo hu]
  cases n with
  | zero => rfl
  | succ n => simp [pass, placeUnit_lookahead, setTrans]

end Sys2Proof.Machine
end

