-- ==== Sys2Proof/Laws/Marks.lean ====
section
/-! SUPPORT. Marks and the lines they refer to: which operations leave every SETTLED line SETTLED (R129), and what each operation keeps of the
rule that every ATTACHED mark refers to a SETTLED line held (R187). -/

namespace Sys2Proof.Machine

/-! ## Settled lines stay settled -/

/-- The marks are as they were, and each SETTLED line still stands, SETTLED (R129). -/
def SettledStay (s t : State) : Prop :=
  t.marks = s.marks ∧ ∀ y ∈ s.lines.records, y.state = .settled → ∃ x ∈ t.lines.records, x.serial = y.serial ∧ x.state = .settled

theorem SettledStay.of_eq {s t : State} (hl : t.lines.records = s.lines.records) (hm : t.marks = s.marks) : SettledStay s t :=
  ⟨hm, fun y hy e => ⟨y, hl ▸ hy, rfl, e⟩⟩

theorem SettledStay.trans {s t u : State} (h1 : SettledStay s t) (h2 : SettledStay t u) : SettledStay s u :=
  ⟨h2.1.trans h1.1, fun y hy e => by
    obtain ⟨x, hx, e1, e2⟩ := h1.2 y hy e
    obtain ⟨z, hz, e3, e4⟩ := h2.2 x hx e2
    exact ⟨z, hz, e3.trans e1, e4⟩⟩

/-- Where SETTLED lines stay, ATTACHED marks keep theirs. -/
theorem SettledStay.attached {s t : State} (h : SettledStay s t) (hs : MarksAttached s) : MarksAttached t := by
  intro m hm hd
  rw [h.1] at hm
  obtain ⟨l, hl, e1, e2⟩ := hs m hm hd
  obtain ⟨x, hx, e3, e4⟩ := h.2 l hl e2
  exact ⟨x, hx, e3.trans e1, e4⟩

theorem attached_of_eq {s t : State} (hl : t.lines.records = s.lines.records) (hm : t.marks = s.marks) (hs : MarksAttached s) : MarksAttached t :=
  (SettledStay.of_eq hl hm).attached hs

/-- Records updated one by one, each SETTLED one to a SETTLED one of its serial. -/
theorem SettledStay.map {s t : State} (g : Line → Line) (hg : ∀ l, l.state = .settled → (g l).serial = l.serial ∧ (g l).state = .settled)
    (hl : t.lines.records = s.lines.records.map g) (hm : t.marks = s.marks) : SettledStay s t :=
  ⟨hm, fun y hy e => ⟨g y, hl ▸ List.mem_map_of_mem hy, hg y e⟩⟩

/-- What the feeds record touches no SETTLED line's state. -/
theorem LinesFed.settledStay {s t : State} (h : LinesFed s t) (hm : t.marks = s.marks) : SettledStay s t :=
  ⟨hm, fun y hy e => by
    obtain ⟨x, hx, b⟩ := h.1.still_there y hy (by simp [e])
    have b := Line.body_inj b
    exact ⟨x, hx, b.1, b.2.2.2.2.1.trans e⟩⟩

theorem chooseAll_stay (s : State) : SettledStay s (chooseAll s) := (chooseAll_fed s).settledStay (by simp)

theorem choose_stay (f : Fin 4) (s : State) : SettledStay s (choose f s) := (choose_fed f s).settledStay (by simp)

theorem becomeOff_stay (f : Fin 4) (s : State) : SettledStay s (becomeOff f s) := by
  unfold becomeOff clearPerLine
  dsimp only
  refine SettledStay.trans ?_ (.of_eq (congrArg (·.records) (refreshHealth_keeps f _).2.2.2.2.2.2.2.1)
    (refreshHealth_keeps f _).2.2.2.2.2.2.2.2.2.1)
  refine SettledStay.trans ?_ ((removeDone_fed _).settledStay (removeDone_keeps _).2.2.2.2.2.2.2.2.1)
  exact .map _ (fun l e => by simp [e]) rfl rfl

theorem settleLines_stay (ns : List Nat) (s : State) : SettledStay s (settleLines ns s) :=
  .map _ (fun l e => by split <;> simp [Line.settled, e]) rfl rfl

theorem settleCheck_stay (s : State) : SettledStay s (settleCheck s).1 := settleLines_stay _ s

theorem closeOpen_stay (s : State) : SettledStay s (closeOpen s).1 := by
  unfold closeOpen
  split
  · exact .of_eq rfl rfl
  · refine SettledStay.trans ?_ (settleCheck_stay _)
    exact .map _ (fun l e => by split <;> simp [Line.close, e]) rfl rfl

theorem settleAll_stay (s : State) : SettledStay s (settleAll s).1 := (closeOpen_stay s).trans (settleLines_stay _ _)

theorem withdrawLines_stay (p : Nat → Bool) (s : State) : SettledStay s (withdrawLines p s) := by
  unfold withdrawLines
  split
  · exact .of_eq rfl rfl
  · refine SettledStay.trans ?_ ((removeDone_fed _).settledStay (removeDone_keeps _).2.2.2.2.2.2.2.2.1)
    exact .map _ (fun l e => by simp [Line.unsettled, e]) rfl rfl

theorem retract_stay (p : Placement) (s : State) : SettledStay s (retract p s) := by
  unfold retract retractInside retractWhole
  dsimp only
  repeat' split
  · exact (withdrawLines_stay _ s).trans (.map _ (fun l e => by split <;> simp [Line.unsettled, e]) rfl rfl)
  · exact (withdrawLines_stay _ s).trans (.map _ (fun l e => by split <;> simp [Line.reopen, e]) rfl rfl)
  all_goals exact (withdrawLines_stay _ s).trans (.of_eq rfl rfl)

/-! ## Reclaim and placing -/

/-- A reclaim takes a line out of the store and detaches its marks (R135, R194). -/
theorem reclaim_attached (s : State) (hs : MarksAttached s) : MarksAttached (reclaim s) := by
  unfold reclaim
  split
  · exact hs
  · rename_i r _
    intro m hm hd
    simp only [liftLowWaters_keeps, detachMarks, tellOwners_keeps, setMarks_marks, reclaimFeeds_keeps, setRecords_marks, List.mem_map] at hm
    obtain ⟨k, hk, rfl⟩ := hm
    by_cases e : becomesDetached r.serial k = true
    · simp [e] at hd
    · rw [if_neg e] at hd ⊢
      obtain ⟨l, hl, e1, e2⟩ := hs k hk hd
      have hne : k.serial ≠ r.serial := by simpa [becomesDetached, hd] using e
      exact ⟨l, by simp [setRecords, detachMarks, hl, e1, hne], e1, e2⟩

theorem openNew_attached (c : Cls) (s : State) (hs : MarksAttached s) : MarksAttached (openNew c s) := by
  have k : MarksAttached (withRoom s) := by
    unfold withRoom
    split
    · exact reclaim_attached s hs
    · exact hs
  exact SettledStay.attached (s := withRoom s) ⟨rfl, fun y hy e => ⟨y, List.mem_append_left _ hy, rfl, e⟩⟩ k

theorem layChars_attached (r : PlaceReq) (cs : List Byte) (y : Laying) (hs : MarksAttached y.s) : MarksAttached (layChars r cs y).s := by
  unfold layChars
  repeat' split
  · exact hs
  · exact hs
  all_goals
    refine SettledStay.attached (s := y.s) ?_ hs
    exact .map _ (fun l e => by split <;> simp [Line.extend, e]) rfl rfl

theorem layOpen_attached (r : PlaceReq) (o : Opening) (y : Laying) (hs : MarksAttached y.s) : MarksAttached (layOpen r o y).s := by
  unfold layOpen
  split
  · exact hs
  · exact openNew_attached _ _ hs

theorem layWrap_attached (r : PlaceReq) (y : Laying) (hs : MarksAttached y.s) : MarksAttached (layWrap r y).s :=
  layOpen_attached r .wrap { y with s := (closeOpen y.s).1, settled := y.settled ++ (closeOpen y.s).2 } ((closeOpen_stay _).attached hs)

theorem layWord_attached (r : PlaceReq) (n : Nat) (w : List Byte) (y : Laying) (hs : MarksAttached y.s) :
    MarksAttached (layWord r n w y).s := by
  induction n generalizing w y with
  | zero => exact hs
  | succ n ih =>
    unfold layWord
    dsimp only
    repeat' split
    · exact hs
    · exact layChars_attached _ _ _ hs
    · exact ih _ _ (layWrap_attached _ _ hs)
    · exact ih _ _ (layWrap_attached _ _ (layChars_attached _ _ _ hs))

theorem layInLine_attached (r : PlaceReq) (t : Token) (y : Laying) (hs : MarksAttached y.s) : MarksAttached (layInLine r t y).s := by
  unfold layInLine
  dsimp only
  repeat' split
  · exact layChars_attached _ _ _ hs
  · exact layChars_attached _ _ _ hs
  · exact layWord_attached _ _ _ _ (layWrap_attached _ _ hs)
  · exact layWord_attached _ _ _ _ (layChars_attached _ _ _ hs)

theorem layToken_attached (r : PlaceReq) (y : Laying) (t : Token) (hs : MarksAttached y.s) : MarksAttached (layToken r y t).s := by
  unfold layToken
  dsimp only
  split
  · exact hs
  · have k : MarksAttached (if y.s.lines.openLine.isSome then y else layOpen r .forced y).s := by
      split
      · exact hs
      · exact layOpen_attached _ _ _ hs
    generalize (if y.s.lines.openLine.isSome then y else layOpen r .forced y) = y1 at k ⊢
    split
    · exact k
    · exact layInLine_attached _ _ _ k

theorem layTokens_attached (r : PlaceReq) (ts : List Token) (y : Laying) (hs : MarksAttached y.s) :
    MarksAttached (ts.foldl (layToken r) y).s := by
  induction ts generalizing y with
  | nil => exact hs
  | cons t ts ih => exact ih _ (layToken_attached r y t hs)

theorem closeOtherClass_stay (c : Cls) (s : State) : SettledStay s (closeOtherClass c s).1 := by
  unfold closeOtherClass
  repeat' split
  all_goals first | exact closeOpen_stay s | exact .of_eq rfl rfl

theorem place_attached (r : PlaceReq) (s : State) (hs : MarksAttached s) : MarksAttached (place r s).s := by
  unfold place
  dsimp only
  refine layTokens_attached r _ _ ((closeOtherClass_stay _ _).attached ?_)
  split
  · exact (closeOpen_stay s).attached hs
  · exact hs

theorem placeUnit_attached (keep : Bool) (u : Formed) (s : State) (hs : MarksAttached s) : MarksAttached (placeUnit keep u s) := by
  refine attached_of_eq (s := (placeFormed u s).s) rfl rfl ?_
  unfold placeFormed placeEmpty
  repeat' split
  · exact (closeOpen_stay s).attached hs
  · exact hs
  · exact place_attached _ _ hs

/-! ## Translation -/

theorem pass_attached (flush keep : Bool) (n : Nat) (s : State) (hs : MarksAttached s) : MarksAttached (pass flush keep n s) := by
  induction n generalizing s with
  | zero => exact hs
  | succ n ih =>
    unfold pass
    dsimp only
    repeat' split
    · exact hs
    · exact hs
    · exact ih _ (placeUnit_attached _ _ _ (attached_of_eq (s := s) rfl rfl hs))

theorem setTimer_attached (b : List TStroke) (s : State) (hs : MarksAttached s) : MarksAttached (setTimer b s) :=
  attached_of_eq (by simp) (by simp) hs

theorem flushComplete_attached (s : State) (hs : MarksAttached s) : MarksAttached (flushComplete s) :=
  attached_of_eq (s := (settleAll s).1) rfl rfl ((settleAll_stay s).attached hs)

theorem retractUnit_attached (u : TUnit) (s : State) (hs : MarksAttached s) : MarksAttached (retractUnit u s) := by
  unfold retractUnit
  dsimp only
  refine setTimer_attached _ _ (pass_attached _ _ _ _ ?_)
  split
  · rename_i p _
    exact attached_of_eq (s := retract p s) rfl rfl ((retract_stay p s).attached hs)
  · exact attached_of_eq (s := s) rfl rfl hs

/-- Whatever stroke the Translator takes, every ATTACHED mark keeps its SETTLED line. -/
theorem takeStroke_attached (k : Stroke) (s : State) (hs : MarksAttached s) : MarksAttached (takeStroke k s) := by
  unfold takeStroke takeCorrection
  repeat' split
  · exact setTimer_attached _ _ (pass_attached _ _ _ _ (attached_of_eq (s := s) rfl rfl hs))
  · exact retractUnit_attached _ _ hs
  · exact attached_of_eq (by simp) (by simp) hs
  · exact setTimer_attached _ _ (pass_attached _ _ _ _ (attached_of_eq (s := s) rfl rfl hs))
  · exact attached_of_eq (by simp) (by simp) hs
  · exact flushComplete_attached _ (setTimer_attached _ _ (pass_attached _ _ _ _ (attached_of_eq (s := s) rfl rfl hs)))

theorem takeAllHanded_attached (n : Nat) (s : State) (hs : MarksAttached s) : MarksAttached (takeAllHanded n s) := by
  induction n generalizing s with
  | zero => exact hs
  | succ n ih =>
    unfold takeAllHanded
    split
    · exact hs
    · exact ih _ (takeStroke_attached _ _ (attached_of_eq (s := s) rfl rfl hs))

theorem leaveLive_attached (c : Bool) (s : State) (hs : MarksAttached s) : MarksAttached (leaveLive c s) := by
  unfold leaveLive
  exact flushComplete_attached _ (attached_of_eq (s := flushPass s) rfl rfl (pass_attached _ _ _ _ hs))

/-! ## The requests on marks and lines -/

/-- A mark set on a SETTLED line held is attached to it (R188, R189). -/
theorem applyMark_attached (m : Mark) (s : State) (hm : ∃ l ∈ s.lines.records, l.serial = m.serial ∧ l.state = .settled)
    (hs : MarksAttached s) : MarksAttached (applyMark m s) := by
  have mem : ∀ ms : List Mark, ∀ x ∈ insertMark m ms, x = m ∨ x ∈ ms := by
    intro ms
    induction ms with
    | nil => simp [insertMark]
    | cons y ys ih =>
      intro x hx
      unfold insertMark at hx
      split at hx
      · simpa using hx
      · rcases List.mem_cons.mp hx with rfl | h
        · simp
        · rcases ih x h with h | h <;> simp [h]
  intro x hx hd
  simp only [applyMark, post_keeps, append_keeps] at hx ⊢
  rcases mem _ x hx with rfl | h
  · exact hm
  · exact hs x h hd

/-- A removal leaves the other marks attached (R191). -/
theorem applyUnmark_attached (l : Link) (m : Mark) (s : State) (hs : MarksAttached s) : MarksAttached (applyUnmark l m s) := by
  intro x hx hd
  simp only [applyUnmark, post_keeps, append_keeps, setMarks_marks, setMarks_lines] at hx ⊢
  exact hs x (List.mem_filter.mp hx).1 hd

/-- An edit leaves the line SETTLED and its marks attached (R137, R193). -/
theorem applyEdit_attached (l : Line) (text : List Byte) (s : State) (hs : MarksAttached s) : MarksAttached (applyEdit l text s) := by
  have k1 : MarksAttached (setRecords (updateLine l.serial (fun x => x.edit text) s.lines.records) s) := by
    refine SettledStay.attached (s := s) ?_ hs
    exact .map _ (fun x e => by split <;> simp [Line.edit, e]) rfl rfl
  have k2 : MarksAttached (reviseMarks l.serial (editNotice l.serial
      (setRecords (updateLine l.serial (fun x => x.edit text) s.lines.records) s))) := by
    intro m hm hd
    simp only [reviseMarks, tellOwners_keeps, setMarks_marks, setMarks_lines, editNotice_keeps, List.mem_map] at hm ⊢
    obtain ⟨x, hx, rfl⟩ := hm
    have e : ∀ b : Bool, (if b = true then { x with revised := true } else x).detached = x.detached ∧
        (if b = true then { x with revised := true } else x).serial = x.serial := by
      intro b
      cases b <;> simp
    rw [(e _).1] at hd
    rw [(e _).2]
    exact k1 x hx hd
  unfold applyEdit
  dsimp only
  refine (chooseAll_stay _).attached (attached_of_eq (congrArg (·.records) (post_keeps ..).2.2.2.2.2.2.2.1) (by simp) ?_)
  split
  · exact attached_of_eq (by simp) (by simp) k2
  · exact k2

/-- After Open Session the Mark Table is empty (R197). -/
theorem emptyTranscript_attached (s : State) : MarksAttached (emptyTranscript s) := by
  intro m hm
  simp [emptyTranscript, feedsAtOpen, allFeeds, MarkTable.emptied] at hm

end Sys2Proof.Machine
end

