-- ==== Sys2Proof/Tests/Slice0.lean ====
section
/-! SUPPORT. The model's own tests: what WellFormed refuses, frames written out byte by byte and the commands they spell, the worked examples
and printed values of spec/ one step at a time, and a witness for the hypotheses of each statement. -/

namespace Sys2Proof.Tests

open Sys2Proof Sys2Proof.Machine

set_option Elab.async false

/-! ## Helpers -/

/-- The part as after a cold reset, in a session state, with session 11 and a clock of 5,000 ms. -/
def inState (st : SessState) : State :=
  { State.reset with session := { State.reset.session with st := st, number := 11, clock := 5000 } }

/-- What a reading of the next state gives; none after a fault or a refusal. -/
def afterwards {α : Type} (c : Instr) (s : State) (f : State → α) : Option α :=
  match exec c s with
  | .next t => some (f t)
  | .fault _ => none
  | .refused _ => none

/-- A key set from the indexes of its keys. -/
def keys (l : List Nat) : KeySet := l.foldr (fun i a => BitVec.twoPow 23 i ||| a) 0

/-- A text. -/
def txt (cs : List Char) : List Byte := cs.map (fun c => BitVec.ofNat 8 c.toNat)

/-- The text of a line. -/
def textOf (s : State) (n : Nat) : Option (List Byte) := (findLine s.lines.records n).map (·.text)

/-- The status of a link's response. -/
def statusOf (l : Link) (s : State) : Option Status :=
  match (s.link l).exch with
  | .ready r => some r.status
  | _ => none

/-- The payload of a link's response. -/
def payloadOf (l : Link) (s : State) : Option (List Byte) :=
  match (s.link l).exch with
  | .ready r => some r.payload
  | _ => none

/-- A block with the given sequence and entries. -/
def block (seq : Nat) (es : List Entry) : Block :=
  { seq := seq, session := 11, firstEntry := 1, incomplete := false, restart := false, reason := none, openTime := 0, closeTime := 0
    firstStroke := none, lastStroke := none, entries := es, crc := 0#16 }

/-- An entry. -/
def ent (kind : EntryKind) (attrs : Byte) (seq time a b : Nat) : Entry :=
  { kind := kind, attrs := attrs, seq := seq, time := time, fieldA := a, fieldB := b }

/-- The entries of the FILLING block. -/
def entriesOf (s : State) : List Entry := ((findFilling s.journal.buffers).map (fun p => p.2.entries)).getD []

/-- A state with one block FILLING in buffer 0. -/
def filling (s : State) (es : List Entry) : State :=
  { s with journal := { s.journal with
      buffers := s.journal.buffers.set 0 (.filling (block 7 es)), nextBlock := 8, intervalTimer := some (s.now + 2000) } }

/-- A dictionary entry without flags. -/
def entry (k : List KeySet) (t : List Char) : DictEntry := { key := k, text := txt t, fmt := Fmt.none }

/-- A stroke as it is handed over. -/
def strokeOn (seq : Nat) (p : KeySet) : Stroke :=
  { seq := seq, time := 0, press := p, shadow := 0, cls := .opn, held := false, stuckExcluded := false }

/-- A line record. -/
def lineRec (serial page line : Nat) (cls : Cls) (st : LineState) (rev : Nat) (t : List Byte) : Line :=
  { serial := serial, page := page, line := line, cls := cls, state := st, revision := rev, text := t, range := none, edited := false
    sent := Quad.const 0, withdrawSent := Quad.const false, runs := [] }

/-- A state with lines held. -/
def withLines (rs : List Line) (counter page line : Nat) (o : Option Nat) (s : State) : State :=
  { s with lines := { s.lines with records := rs, counter := counter, nextPage := page, nextLine := line, openLine := o } }

/-- A state with a READY main tier. -/
def withMain (es : List DictEntry) (s : State) : State := { s with dict := { s.dict with mainState := .ready, main := es } }

/-- A state with strokes handed over. -/
def handed (ks : List Stroke) (s : State) : State := { s with trans := { s.trans with handed := ks } }

/-! ## WellFormed refuses (R25, R200, R201, R205, R216, R217) -/

theorem test_wf_refuses_short_slots :
    [Instr.recoverySlotRead (.altered []), .blockReadComplete (.altered [0#8])].all (fun i => !i.wf) = true := by decide +kernel

theorem test_wf_refuses_transfers_of_another_kind :
    [Instr.fetch .bench 0, .frameError .bench [], .frameError .reporter [0x01#8, 0x00#8, 0x00#8, 0x00#8],
     .frameError .reporter [0x00#8], .frameDiscarded .bench [0x00#8], .unknownRequest .bench 0x01#8 0#8,
     .unknownRequest .bench 0x00#8 0#8].all (fun i => !i.wf) = true := by decide +kernel

theorem test_wf_refuses_numbers_too_large :
    [Instr.readLines .bench 0#8 (.fields { start := .serial 4294967296, count := 1 }),
     .readLines .bench 0#8 (.fields { start := .pageLine 65536 1, count := 1 }),
     .readLines .bench 0#8 (.fields { start := .pageLine 1 256, count := 1 }),
     .setMark .bench 0#8 (.fields { serial := 1, kind := 256, label := none }),
     .removeMark .bench 0#8 (.fields 256), .listMarks .bench 0#8 (.fields { filter := 0, serial := 0, id := 256 }),
     .setChordTiming .reporter 0#8 (.fields { pressCount := 1, releaseCount := 1, hysteresis := 4, holdLimit := 65536, scanInterval := 1 }),
     .setKeyConditioning .reporter 0#8 (.fields { key := 0, offset := 32768, gain := 64, press := 600, light := 0 }),
     .setKeyConditioning .reporter 0#8 (.fields { key := 0, offset := -32769, gain := 64, press := 600, light := 0 }),
     .setTranslationParameters .reporter 0#8 (.fields { resolution := none, width := some 256, pageLen := none, settle := none
                                                        interval := none, deglitch := none, repPresence := none, benchPresence := none }),
     .readJournalBlock .reporter 0#8 (.fields 4294967296), .releaseJournalBlock .reporter 0#8 (.fields 4294967296),
     .setFeed .reporter 0#8 (.fields { feed := 0, audience := 0, rate := 256, backfill := 1, idle := 1, stall := 1 }),
     .enableFeed .reporter 0#8 (.fields 256), .disableFeed .reporter 0#8 (.fields 256),
     .testFeed .reporter 0#8 (.fields { feed := 0, count := 256 }), .setClass .bench 0#8 (.fields 256)].all (fun i => !i.wf) = true := by
  decide +kernel

theorem test_wf_refuses_lists_and_texts_too_long :
    [Instr.lookUp .reporter 0#8 (.fields (List.replicate 256 1#24)), .stageRemove .reporter 0#8 (.fields (List.replicate 256 1#24)),
     .stageDefine .reporter 0#8 (.fields { key := [1#24], text := List.replicate 256 0x41#8, flags := 0#8 }),
     .editLine .reporter 0#8 (.fields { serial := 1, text := List.replicate 256 0x41#8 }),
     .loadEntries .reporter 0#8 (.fields (List.replicate 5 { key := [1#24], text := List.replicate 255 0x41#8, flags := 0#8 }))].all
      (fun i => !i.wf) = true := by decide +kernel

theorem test_wf_accepts :
    [Instr.powerOn, .keySample 4095#12, .fetch .bench 1, .frameError .bench [0x01#8], .unknownRequest .bench 0x73#8 0#8,
     .setKeyConditioning .reporter 0#8 (.fields { key := 255, offset := -32768, gain := 255, press := 65535, light := 65535 }),
     .getStatus .bench 9#8 .badLength].all Instr.wf = true := by decide +kernel

/-! ## Frames spelled out (R216, R217) -/

theorem test_decode_table_word_has_no_bits : decodeTableWord 0 0 = none := rfl

theorem test_decode_get_status :
    decodeTransfer .bench true [0x01#8, 0x2A#8, 0x00#8, 0x00#8] = some (.getStatus .bench 0x2A#8 (.fields ())) := by decide

theorem test_decode_set_key_conditioning :
    decodeTransfer .reporter true [0x11#8, 0x07#8, 0x00#8, 0x08#8, 0x02#8, 0xFF#8, 0xEC#8, 0x30#8, 0x02#8, 0x58#8, 0x01#8, 0x2C#8] =
      some (.setKeyConditioning .reporter 0x07#8 (.fields { key := 2, offset := -20, gain := 48, press := 600, light := 300 })) := by
  decide +kernel

theorem test_decode_stage_define :
    decodeTransfer .reporter true
      [0x24#8, 0x01#8, 0x00#8, 0x0A#8, 0x02#8, 0x08#8, 0x00#8, 0x04#8, 0x40#8, 0x00#8, 0x00#8, 0x01#8, 0x41#8, 0x05#8] =
      some (.stageDefine .reporter 0x01#8
        (.fields { key := [0x080004#24, 0x400000#24], text := [0x41#8], flags := 0x05#8 })) := by decide +kernel

theorem test_decode_set_mark_without_label :
    decodeTransfer .bench true [0x04#8, 0x03#8, 0x00#8, 0x06#8, 0x00#8, 0x00#8, 0x00#8, 0xD6#8, 0x01#8, 0x00#8] =
      some (.setMark .bench 0x03#8 (.fields { serial := 214, kind := 1, label := none })) := by decide +kernel

theorem test_decode_wrong_length_of_fields :
    decodeTransfer .bench true [0x70#8, 0x03#8, 0x00#8, 0x02#8, 0x00#8, 0x00#8] = some (.setClass .bench 0x03#8 .badLength) := by
  decide +kernel

theorem test_decode_malformed :
    decodeTransfer .bench true [0x70#8, 0x03#8, 0x00#8, 0x02#8, 0x00#8] =
      some (.frameError .bench [0x70#8, 0x03#8, 0x00#8, 0x02#8, 0x00#8]) := by decide +kernel

theorem test_decode_fetch_unknown_discarded :
    decodeTransfer .reporter true [0x00#8, 0x55#8] = some (.fetch .reporter 2) ∧
    decodeTransfer .reporter true [0x35#8, 0x09#8, 0x00#8, 0x00#8] = some (.unknownRequest .reporter 0x35#8 0x09#8) ∧
    decodeTransfer .reporter false [0x43#8, 0x09#8, 0x00#8, 0x00#8] =
      some (.frameDiscarded .reporter [0x43#8, 0x09#8, 0x00#8, 0x00#8]) ∧
    decodeTransfer .reporter true [] = none := by decide +kernel

/-! ## Printed values (R100, R178, R221; worked example of chapter 1) -/

theorem test_crc_of_one_zero_byte : crc16 [0#8] = 0xFD02#16 := by decide +kernel

theorem test_first_bytes_of_the_test_sequence : (testBytes 3 testSeed).1 = [0xFF#8, 0xE1#8, 0x1D#8] := by decide +kernel

theorem test_test_sequence_repeats_after_511_bits : (testBits 511 testSeed).2 = testSeed := by decide +kernel

theorem test_written_forms :
    writtenForm (keys [1, 2, 4, 6]) = txt ['S', 'T', 'P', 'H'] ∧ writtenForm (keys [19, 20]) = txt ['-', 'T', 'S'] ∧
    writtenForm (keys [0, 22]) = txt ['#', '-', 'Z'] ∧ writtenForm (keys [2, 8, 19]) = txt ['T', 'A', 'T'] ∧
    writtenForm (keys [10, 19]) = txt ['*', 'T'] ∧ writtenForm (keys [0]) = txt ['#'] := by decide +kernel

theorem test_conditioned_depths :
    [420, 905, 1060, 880, 700, 720, 20].map (conditionDepth (-20) 48) = [294, 657, 774, 639, 504, 519, 0] ∧
    conditionDepth (-20) 127 4095 = 1023 := by decide +kernel

/-! ## Keys and chords: the worked examples of chapter 1 -/

/-- The key machine at the third and the sixth sample of the conditioning example. -/
theorem test_key_machine :
    (({ Key.cold with st := .pressing, count := 1 }).step 2 2 64 774).1.st = .down ∧
    (({ Key.cold with st := .down }).step 2 2 64 639).1.st = .down ∧
    (({ Key.cold with st := .releasing, count := 1 }).step 2 2 64 519).2 = .wentUp ∧
    (({ Key.cold with st := .releasing, count := 1 }).step 2 2 64 560).1.st = .down := by decide +kernel

/-- The chord example before its last sample: S- up again, T- releasing, K- light-touched. -/
def chordState : State :=
  { inState .live with
    session := { (inState .live).session with clock := 184300 }
    ksu := { Ksu.cold with
      scanPos := 2
      keys := ((Ksu.cold.keys.set 2 { Key.cold with st := .releasing, count := 1 }).set 3
        { Key.cold with touched := true, cond := { Key.cold.cond with light := 300 } }) }
    chords := {
      chord := some { press := keys [1, 2], start := 184020, held := false, stuckExcluded := false, hold := some 2000 }, strokes := 41 } }

theorem test_key_sample_closes_the_chord :
    afterwards (.keySample 248#12) chordState (fun t => (t.trans.handed, t.chords.chord, t.ksu.scanPos)) =
      some ([{ seq := 42, time := 184020, press := keys [1, 2], shadow := keys [3], cls := .opn, held := false, stuckExcluded := false }],
        none, 3) := by decide +kernel

theorem test_hold_expiry_leaves_the_stuck_key_out :
    afterwards .holdTimerExpiry
      { chordState with now := 2000, ksu := { chordState.ksu with keys := chordState.ksu.keys.set 2 { Key.cold with st := .down } } }
      (fun t => (t.trans.handed.map (fun k => (k.press, k.shadow, k.held, k.stuckExcluded)), (keyAt t 2).st,
        latchHolds .keyStuck t.reporter.attn)) =
      some ([(keys [1], keys [3], true, true)], .stuck, true) := by decide +kernel

/-- The sums of the zeroing example for S-, -G and -T. -/
def zeroingState : State :=
  { inState .standby with ksu := { Ksu.cold with
      keys := Ksu.cold.keys.set 19 { Key.cold with cond := { Key.cold.cond with offset := 5 } }
      zeroing := some {
        begun := true
        accs := (((List.replicate 23 { sum := 3072, count := 64, min := 48, max := 48 }).set 1
          { sum := 3137, count := 64, min := 44, max := 54 }).set 18 { sum := 40000, count := 64, min := 618, max := 632 }).set 19
          { sum := 6400, count := 64, min := 61, max := 140 } } } }

theorem test_zeroing_of_three_keys :
    afterwards .zeroingComplete zeroingState (fun t => [1, 18, 19].map (fun i => (keyAt t i).cond.offset)) = some [1, 511, 5] ∧
    afterwards .zeroingComplete zeroingState (fun t =>
      match t.ksu.zeroResult with
      | .complete ks => [1, 18, 19].map (fun i => ks[i]?)
      | _ => []) = some [some .updated, some .clamped, some .unstable] := by decide +kernel

theorem test_set_key_conditioning_clamps :
    afterwards (.setKeyConditioning .reporter 1#8 (.fields { key := 255, offset := 600, gain := 8, press := 100, light := 300 }))
      (inState .standby) (fun t => ((keyAt t 22).cond, payloadOf .reporter t)) =
      some ({ offset := 511, gain := 16, press := 100, light := 99 }, some [0x16#8]) := by decide +kernel

/-! ## The journal: the worked example of chapter 2 -/

/-- The journal of the example while block 9,049 is written: SUSPENDED, with 5 strokes and 1 other entry missed. -/
def suspendedState : State :=
  { inState .live with journal := { State.reset.journal with
      buffers := { q0 := .writing (block 9049 []) 1413, q1 := .queued (block 9050 []) none, q2 := .queued (block 9051 []) none
                   q3 := .queued (block 9052 []) none }
      queue := [1, 2, 3], cond := .suspended, missedStrokes := 5, missedOther := 1, firstMissed := some 1211
      nextEntry := 579329, nextBlock := 9053, lastSlot := 1413, port := .write 0 1413 } }

theorem test_block_write_complete_ends_the_suspension :
    afterwards (.blockWriteComplete true) suspendedState entriesOf = some [ent .gap 0#8 1211 5000 5 1] ∧
    afterwards (.blockWriteComplete true) suspendedState (fun t =>
      (findFilling t.journal.buffers).map (fun p => [p.1.val, p.2.seq, p.2.firstEntry, t.journal.nextEntry])) =
      some (some [0, 9053, 579329, 579330]) ∧
    afterwards (.blockWriteComplete true) suspendedState (fun t =>
      [decide (t.journal.cond = .normal), latchHolds .blockStored t.reporter.attn, latchHolds .journalSuspended t.bench.attn]) =
      some [true, true, true] := by decide +kernel

theorem test_second_write_failure_faults :
    afterwards (.blockWriteComplete false) { suspendedState with journal := { suspendedState.journal with failures := 1 } }
      (fun t => (t.journal.cond, t.journal.queue, sparseGet t.journal.slots 1413)) =
      some (.faulted .writeFailures, [0, 1, 2, 3], some .bad) := by decide +kernel

theorem test_block_write_start_wraps :
    afterwards .blockWriteStart
      { suspendedState with journal := { suspendedState.journal with
        port := .idle, lastSlot := 2047, slots := [(0, .bad)] } }
      (fun t => (t.journal.port, t.journal.queue, t.journal.lastSlot)) = some (.write 1 1, [2, 3], 1) := by decide +kernel

theorem test_release_takes_the_oldest_block_alone :
    let s := { inState .live with journal := { State.reset.journal with
      slots := [(1412, .stored { seq := 9048, session := 11, count := 64, firstEntry := 579009 }),
                (1413, .stored { seq := 7001, session := 9, count := 64, firstEntry := 1 })] } }
    afterwards (.releaseJournalBlock .reporter 1#8 (.fields 7001)) s (fun t => (t.journal.waiting, t.reporter.exch)) =
      some (some (.clear 1413 7001), .executing 0x41#8 1#8) ∧
    afterwards (.releaseJournalBlock .reporter 1#8 (.fields 9048)) s (statusOf .reporter) = some (some .outOfOrder) := by decide +kernel

theorem test_header_clear_frees_the_slot :
    afterwards (.headerClearComplete true)
      { inState .live with
        journal := { State.reset.journal with
          slots := [(1413, .stored { seq := 7001, session := 9, count := 64, firstEntry := 1 })], port := .reporter (.clear 1413 7001) }
        reporter := { State.reset.reporter with exch := .executing 0x41#8 9#8 } }
      (fun t => (t.journal.slots, t.journal.port, t.reporter.exch)) =
      some ([], .idle, .ready { code := 0x41#8, tag := 9#8, status := .ok, payload := [0#8] }) := by decide +kernel

theorem test_recovery_read_of_zeros_is_free :
    afterwards (.recoverySlotRead .asHeld) State.reset (fun t => (t.journal.slots, t.journal.cursor)) = some ([], 1) ∧
    afterwards (.recoverySlotRead .headerFailed) State.reset (fun t => (t.journal.slots, t.journal.cursor)) =
      some ([(0, .bad)], 1) := by decide +kernel

/-! ## The dictionary: the worked examples of chapter 4 -/

def goodKey : KeySet := keys [2, 3, 4, 5, 8, 9, 21]
def morningKey : KeySet := keys [4, 6, 9, 14, 15, 16, 18]
def creekKey : KeySet := keys [3, 7, 8, 9, 11, 16, 18]

def goodMorning : List DictEntry :=
  [entry [goodKey] ['g', 'o', 'o', 'd'],
   entry [goodKey, morningKey] ['g', 'o', 'o', 'd', ' ', 'm', 'o', 'r', 'n', 'i', 'n', 'g'],
   entry [morningKey] ['m', 'o', 'r', 'n', 'i', 'n', 'g']]

/-- Entries 2 and 4 of the load batch: no room in the pool, and a text that fills it with one character replaced. -/
theorem test_load_entries_at_the_pool_limit :
    let d := { Dict.cold with
      mainState := .loading, poolUse := 1572860, main := [entry [goodKey] ['a'], entry [morningKey] ['b']] }
    (loadEntry d { key := [goodKey.zeroExtend 24], text := List.replicate 8 0x41#8, flags := 0#8 }).2 =
      { status := .poolFull, replaced := false, chars := 0 } ∧
    (loadEntry d { key := [morningKey.zeroExtend 24], text := [0x63#8, 0x61#8, 0x66#8, 0x07#8], flags := 0#8 }).2 =
      { status := .ok, replaced := true, chars := 1 } ∧
    (loadEntry d { key := [morningKey.zeroExtend 24], text := [0x63#8, 0x61#8, 0x66#8, 0x07#8], flags := 0#8 }).1.poolUse = 1572864 := by
  decide +kernel

/-- The group of the commit example staged, with group number 7. -/
def stagedState : State :=
  filling { withMain goodMorning (inState .live) with dict := { (withMain goodMorning (inState .live)).dict with
    groupNumber := 7
    group := some [.define { key := [goodKey, morningKey], text := [], fmt := { Fmt.none with suppress := true } },
                   .define (entry [goodKey, creekKey] ['G', 'o', 'o', 'd', ' ', 'C', 'r', 'e', 'e', 'k'])] } } []

theorem test_commit_group_applies_both_changes :
    afterwards (.commitGroup .reporter 1#8 (.fields ())) stagedState (fun t =>
      (t.dict.job.length, t.dict.groupNumber, t.dict.group.isNone)) = some (2, 8, true) ∧
    afterwards (.commitGroup .reporter 1#8 (.fields ())) stagedState (payloadOf .reporter) =
      some (some [0x00#8, 0x08#8, 0x02#8, 0x00#8, 0x00#8, 0x00#8, 0x00#8, 0x02#8]) ∧
    afterwards (.commitGroup .reporter 1#8 (.fields ())) stagedState entriesOf = some [ent .commit 0#8 8 5000 2 0] ∧
    afterwards (.commitGroup .reporter 1#8 (.fields ()))
      { inState .live with dict := { Dict.cold with
        job := [entry [morningKey] ['a'], entry [creekKey] []]
        group := some [.remove [goodKey], .define (entry [morningKey] ['x']), .remove [creekKey]] } }
      (fun t => (t.dict.job, payloadOf .reporter t)) =
      some ([entry [morningKey] ['x']], some [0x00#8, 0x01#8, 0x00#8, 0x01#8, 0x01#8, 0x01#8, 0x00#8, 0x01#8]) := by decide +kernel

theorem test_resolution_after_the_commit :
    afterwards (.commitGroup .reporter 1#8 (.fields ())) stagedState (fun t =>
      [[goodKey], [goodKey, morningKey], [goodKey, creekKey]].map (fun k =>
        (((resolve t.dict k).entry).map (·.text.length), extendable t.dict k))) =
      some [(some 4, true), (none, false), (some 10, false)] := by decide +kernel

/-! ## Translation: the worked example Good Morning of chapter 5 -/

/-- Stroke 1 waits, stroke 2 is handed over. -/
def waiting : State :=
  let s := handed [strokeOn 2 morningKey] (withMain goodMorning (inState .live))
  { s with trans := { s.trans with lookahead := [{ seq := 1, press := goodKey, cls := .opn }], timer := some 1500 } }

theorem test_stroke_handover_waits_while_extendable :
    afterwards .strokeHandover (handed [strokeOn 1 goodKey] (withMain goodMorning (inState .live)))
      (fun t => (t.trans.lookahead.map (·.seq), t.trans.timer, t.lines.counter)) = some ([1], some 1500, 0) := by decide +kernel

theorem test_stroke_handover_places_good_morning :
    afterwards .strokeHandover waiting (fun t => (textOf t 1, t.trans.lookahead, t.trans.timer, t.trans.history.length)) =
      some (some (txt ['g', 'o', 'o', 'd', ' ', 'm', 'o', 'r', 'n', 'i', 'n', 'g']), [], none, 1) := by decide +kernel

/-- The first line as the two strokes left it, with the correction stroke handed over. -/
def corrected : State :=
  match exec .strokeHandover waiting with
  | .next t => handed [strokeOn 3 (keys [10])] t
  | _ => waiting

theorem test_correction_takes_the_unit_back :
    afterwards .strokeHandover corrected (fun t =>
      [t.lines.records.length, t.lines.counter, t.lines.nextPage, t.lines.nextLine, t.trans.history.length]) = some [0, 1, 1, 1, 0] ∧
    afterwards .strokeHandover corrected (fun t => (t.lines.openLine, t.trans.lookahead.map (·.seq), t.trans.timer)) =
      some (none, [1], some 1500) := by decide +kernel

theorem test_resolution_expiry_places_good :
    afterwards .resolutionTimerExpiry
      { withLines [] 1 1 1 none waiting with now := 1500 }
      (fun t => (textOf t 2, t.trans.lookahead, t.trans.timer)) = some (some (txt ['g', 'o', 'o', 'd']), [], none) := by decide +kernel

/-! ## Lines: the worked example of chapter 6 -/

def wide : List Byte := List.replicate 24 0x41#8

/-- Lines 38 to 40, with "the defendant" about to be placed. -/
def wrapState : State :=
  let s := withMain [entry [keys [2, 3, 11], keys [2, 3, 8]] ['t', 'h', 'e', ' ', 'd', 'e', 'f', 'e', 'n', 'd', 'a', 'n', 't']]
    (withLines
      [lineRec 38 2 13 .opn .closed 6 wide, lineRec 39 2 14 .opn .closed 5 wide,
       { lineRec 40 2 15 .opn .opn 4 (txt ['a', 'n', 'd', ' ', 't', 'h', 'e', 'n', ' ', 'I', ' ', 's', 'a', 'w']) with
          range := some (303, 306), runs := [{ column := 0, first := 303, last := 306 }] }]
      40 2 16 (some 40) (handed [strokeOn 312 (keys [2, 3, 8])] (inState .live)))
  { s with
    lines := { s.lines with width := 24 }
    trans := { s.trans with lookahead := [{ seq := 311, press := keys [2, 3, 11], cls := .opn }] } }

theorem test_placement_wraps_and_settles :
    afterwards .strokeHandover wrapState (fun t => t.lines.records.map (fun l => [l.serial, l.page, l.line, l.revision])) =
      some [[38, 2, 13, 6], [39, 2, 14, 5], [40, 2, 15, 5], [41, 2, 16, 1]] ∧
    afterwards .strokeHandover wrapState (fun t => t.lines.records.map (fun l => (l.state, l.range))) =
      some [(.settled, none), (.closed, none), (.closed, some (303, 312)), (.opn, some (311, 312))] ∧
    afterwards .strokeHandover wrapState (fun t => t.trans.history.map (fun u => u.placement)) =
      some [some { serial := 40, column := 14, count := 13, opening := .continued }] ∧
    afterwards .strokeHandover wrapState (fun t => textOf t 41) =
      some (some (txt ['d', 'e', 'f', 'e', 'n', 'd', 'a', 'n', 't'])) := by decide +kernel

/-- The same lines after the wrap, shown on F2, with the correction stroke handed over. -/
def unwrapState : State :=
  match exec .strokeHandover wrapState with
  | .next t => handed [strokeOn 313 (keys [10])] { t with lines := { t.lines with
      records := t.lines.records.map (fun l => { l with sent := l.sent.set 2 l.revision }) } }
  | _ => wrapState

theorem test_correction_reopens_the_wrapped_line :
    afterwards .strokeHandover unwrapState (fun t =>
      t.lines.records.map (fun l => [l.serial, l.revision, l.text.length])) =
      some [[38, 6, 24], [39, 5, 24], [40, 6, 14], [41, 2, 0]] ∧
    afterwards .strokeHandover unwrapState (fun t => t.lines.records.map (fun l => (l.state, l.range))) =
      some [(.settled, none), (.closed, none), (.opn, some (303, 306)), (.withdrawn, none)] ∧
    afterwards .strokeHandover unwrapState (fun t => (t.lines.openLine, t.lines.nextPage, t.lines.nextLine)) = some (some 40, 2, 16) ∧
    afterwards .strokeHandover unwrapState (fun t => t.trans.lookahead.map (·.seq)) = some [311] := by decide +kernel

theorem test_edit_line_replaces_and_revises :
    afterwards (.editLine .reporter 1#8 (.fields { serial := 121, text := [0x41#8, 0x0A#8] }))
      (withLines [lineRec 121 4 20 .opn .settled 3 wide] 121 4 21 none (inState .live))
      (fun t => (t.lines.records.map (fun l => (l.text, l.revision, l.edited)), payloadOf .reporter t, latchHolds .lineEdited t.bench.attn)) =
      some ([([0x41#8, 0x3F#8], 4, true)], some [0x00#8, 0x04#8, 0x01#8], true) := by decide +kernel

/-! ## The class: the worked example of chapter 7 -/

/-- SBAR high for 20 ms after stroke 502. -/
def sidebarState : State :=
  let s := filling (inState .live) []
  { s with
    now := 20
    pins := { s.pins with sbar := true }
    cls := { s.cls with timer := some 20 }
    chords := { s.chords with strokes := 502 } }

theorem test_deglitch_expiry_asks_for_a_class_entry :
    afterwards .deglitchExpiry sidebarState (fun t => (t.cls.effective, entriesOf t)) =
      some (.sidebar, [ent .cls 1#8 502 5000 0x010001 0x000200]) ∧
    afterwards .deglitchExpiry sidebarState (fun t =>
      [latchHolds .classChanged t.reporter.attn, latchHolds .classChanged t.bench.attn, latchHolds .sidebarLine t.reporter.attn,
       latchHolds .sidebarLine t.bench.attn]) = some [true, true, true, true] := by decide +kernel

theorem test_set_class_under_the_sidebar :
    afterwards (.setClass .bench 1#8 (.fields 2)) { inState .live with cls := { State.reset.cls with sbar := true, effective := .sidebar } }
      (fun t => (t.cls.effective, payloadOf .bench t)) = some (.chambers, some [0x02#8, 0x01#8, 0x02#8]) := by decide +kernel

/-! ## The feeds: the worked example of chapter 8 -/

/-- F2 before its receiver's line is asserted. -/
def feedState : State :=
  let sent := fun (n : Nat) (l : Line) => { l with sent := l.sent.set 2 n }
  let s := withLines
    [sent 3 (lineRec 121 4 20 .opn .settled 3 []), lineRec 122 4 21 .sidebar .settled 5 [], lineRec 123 4 22 .sidebar .closed 2 [],
     lineRec 124 4 23 .opn .closed 3 (txt ['x']), lineRec 125 4 24 .opn .opn 1 []] 125 4 25 (some 125) (inState .live)
  { s with feeds := { s.feeds with ctx := s.feeds.ctx.set 2 { Feed.cold with
      state := .live, lowWater := 122, announced := 97, seen := true, stallTimer := some 3000, health := .healthy } }
           reporter := { s.reporter with latched := Quad.const .healthy } }

theorem test_fnrdy_change_announces_the_withheld_run :
    afterwards (.fnrdyChange 2 true) feedState (fun t =>
      ((feed t 2).flight, (feed t 2).announced, (feed t 2).withheld, (feed t 2).health, (feed t 2).lowWater)) =
      some (some (.withheld 122 4 21 .sidebar), 122, true, .withholding, 123) ∧
    afterwards (.fnrdyChange 2 true) feedState (fun t => ((feed t 2).stallTimer, t.reporter.latched.get 2)) =
      some (none, .healthy) := by decide +kernel

/-- The same feed when the WITHHELD frame is about to complete. -/
def announced : State :=
  match exec (.fnrdyChange 2 true) feedState with
  | .next t => t
  | _ => feedState

theorem test_frame_complete_goes_on_with_the_next_line :
    afterwards (.frameComplete 2) announced (fun t =>
      ((feed t 2).flight, (feed t 2).announced, (feed t 2).withheld, (feed t 2).health, (feed t 2).lowWater)) =
      some (some (.text false 124 4 23 .opn 3 (txt ['x'])), 123, false, .healthy, 124) := by decide +kernel

theorem test_feed_frame_bytes :
    FeedFrame.bytes (.withheld 122 4 21 .sidebar) =
      [0xA5#8, 0x5A#8, 0x04#8, 0x08#8, 0x00#8, 0x00#8, 0x00#8, 0x7A#8, 0x00#8, 0x04#8, 0x15#8, 0x01#8]
        ++ crcField (crc16 [0x04#8, 0x08#8, 0x00#8, 0x00#8, 0x00#8, 0x7A#8, 0x00#8, 0x04#8, 0x15#8, 0x01#8]) := by decide +kernel

theorem test_stall_expiry_alerts :
    afterwards (.stallTimerExpiry 2) { feedState with now := 3000 }
      (fun t => ((feed t 2).state, (feed t 2).health, latchHolds .feedAlert t.bench.attn)) = some (.stalled, .stalled, true) := by
  decide +kernel

/-! ## Marks: the worked example of chapter 9 -/

/-- The table and the lines of the example. -/
def markState : State :=
  let s := withLines [lineRec 214 9 14 .opn .settled 3 wide, lineRec 231 10 6 .opn .closed 1 wide] 231 10 7 none (inState .live)
  { s with
    session := { s.session with clock := 5402100 }
    marks := {
      lastId := 254
      records :=
        [{ id := 255, owner := .bench, kind := .issue, serial := 150, page := 6, line := 25, time := 1, label := none
           detached := false, revised := false },
         { id := 1, owner := .reporter, kind := .review, serial := 198, page := 8, line := 23, time := 1, label := some (txt ['K'])
           detached := false, revised := false }] } }

theorem test_set_mark_counts_on_to_a_free_id :
    afterwards (.setMark .bench 1#8 (.fields { serial := 214, kind := 1, label := none })) markState (fun t =>
      (t.marks.records.map (·.id), t.marks.lastId, latchHolds .markChanged t.reporter.attn, payloadOf .bench t)) =
      some ([255, 1, 2], 2, true, some [0x02#8, 0x00#8, 0x09#8, 0x0E#8, 0x00#8, 0x52#8, 0x6D#8, 0xF4#8, 0x00#8]) ∧
    afterwards (.setMark .bench 1#8 (.fields { serial := 214, kind := 1, label := none })) markState entriesOf =
      some [ent .mark 0#8 214 5402100 0x020101 0x00090E] := by decide +kernel

theorem test_set_mark_refuses_a_closed_line :
    afterwards (.setMark .bench 1#8 (.fields { serial := 231, kind := 0, label := none })) markState (statusOf .bench) =
      some (some .notSettled) := by decide +kernel

/-! ## Sessions: the worked example of chapter 3 -/

theorem test_open_session :
    afterwards (.openSession .reporter 1#8 (.fields ())) (inState .standby) (fun t =>
      (t.session.st, t.session.number, t.session.clock, entriesOf t)) = some (.live, 12, 0, [ent .opn 0#8 0 0 12 0]) := by decide +kernel

theorem test_recess_closes_the_block :
    afterwards (.recess .reporter 1#8 (.fields ())) (filling { inState .live with chords := { chord := none, strokes := 1830 } } [])
      (fun t => (t.session.st, t.session.recesses, match t.journal.buffers.q0 with
        | .queued b _ => (b.reason, b.entries)
        | _ => (none, []))) = some (.recess, 1, some .recess, [ent .recess 0#8 1830 5000 11 1]) := by decide +kernel

theorem test_resume_during_zeroing_is_busy :
    afterwards (.resume .reporter 1#8 (.fields ())) { zeroingState with session := { zeroingState.session with st := .recess } }
      (fun t => (t.session.st, statusOf .reporter t)) = some (.recess, some .busy) := by decide +kernel

theorem test_last_write_ends_closing :
    afterwards (.blockWriteComplete true)
      { inState .closing with journal := { State.reset.journal with
        buffers := { State.reset.journal.buffers with q0 := .writing (block 7 []) 3 }, port := .write 0 3 } }
      (fun t => (t.session.st, t.session.clock, latchHolds .sessionState t.bench.attn)) = some (.standby, 5000, true) := by decide +kernel

/-! ## Resets and links: R56, R204, and the worked example of chapter 10 -/

theorem test_power_on_samples_the_pins :
    afterwards .powerOn { inState .live with pins := { State.reset.pins with sbar := true, fgate3 := false } }
      (fun t => (t.session.st, t.session.cause, t.cls.effective, t.feeds.gate)) = some (.start, .powerOn, .sidebar, true) := by
  decide +kernel

theorem test_presence_expiry_discards_the_group :
    afterwards (.presenceTimerExpiry .reporter)
      { stagedState with reporter := { stagedState.reporter with timer := some 0 } }
      (fun t => (t.reporter.present, t.dict.group, latchHolds .groupDiscarded t.reporter.attn, latchHolds .reporterPresence t.bench.attn)) =
      some (false, none, true, true) := by decide +kernel

theorem test_read_attention_reads_and_empties :
    afterwards (.readAttention .reporter 5#8 (.fields ()))
      { inState .live with reporter := { State.reset.reporter with present := false, attn := latch .blockStored 0#20 } }
      (fun t => (payloadOf .reporter t, t.reporter.attn, t.reporter.present, latchHolds .reporterPresence t.bench.attn)) =
      some (some [0x00#8, 0x00#8, 0x00#8, 0x04#8, 0x07#8, 0x07#8, 0x07#8, 0x07#8, 0x00#8], 0#20, true, true) := by decide +kernel

theorem test_frame_discarded_keeps_the_response :
    afterwards (.frameDiscarded .reporter [0x43#8, 0x09#8, 0x00#8, 0x00#8])
      { inState .live with reporter := { State.reset.reporter with
        exch := .ready { code := 0x02#8, tag := 5#8, status := .ok, payload := [] } } }
      (fun t => (t.reporter.discard, t.reporter.timer, statusOf .reporter t)) = some (true, some 3000, some .ok) := by decide +kernel

theorem test_fetch_sends_the_link_flags :
    afterwards (.fetch .reporter 7)
      { inState .live with reporter := { State.reset.reporter with
        discard := true, attn := 0#20, exch := .ready { code := 0x02#8, tag := 5#8, status := .ok, payload := [0x77#8] } } }
      (fun t => (t.reporter.fetched, t.reporter.exch, t.reporter.discard)) =
      some ([0x02#8, 0x05#8, 0x00#8, 0x02#8, 0x00#8, 0x01#8, 0x77#8], .idle, false) := by decide +kernel

/-! ## Witnesses: states and operands that meet the hypotheses of the statements, at the ends of their ranges -/

theorem takes_in (l : Link) (st : SessState) (h : st ≠ .start) : Takes l (inState st) := by
  cases l <;> exact ⟨rfl, rfl, h⟩

/-- A state in STANDBY with the memory port at work. -/
def withPort (p : Port) (s : State) : State := { s with journal := { s.journal with port := p } }

/-- A state in which both links hold a timer that expires at `e`. -/
def linkTimers (e : Nat) (s : State) : State :=
  { s with reporter := { s.reporter with timer := some e }, bench := { s.bench with timer := some e } }

/-- A state with 62 entries in its FILLING block and one entry sequence below the last: an entry asked for can still join the block. -/
def nearFull (s : State) : State :=
  let t := filling s (List.replicate 62 (ent .mark 0#8 1 1 1 1))
  { t with journal := { t.journal with nextEntry := 4294967294 } }

/-- The conditions under which `EntryJoins` and `EntryCloses` say what an entry asked for does. -/
def joinable (s : State) : Bool :=
  decide (s.journal.cond = .normal ∧ s.journal.nextEntry < 4294967295) &&
    ((findFilling s.journal.buffers).map (fun p => decide (p.2.entries.length < 63))).getD false

theorem witness_EmptyQueuePassesOneMillisecond : State.reset.pending = [] := rfl

theorem witness_ResetCutsOnlyTheRunningTransfer :
    (∃ t, Memory.wf (withPort (.write 3 2047) (inState .live)).memory ∧ exec .powerOn (withPort (.write 3 2047) (inState .live)) = .next t ∧
      (withPort (.write 3 2047) (inState .live)).journal.port = .write 3 2047) ∧
    (∃ t, exec .rstnAssert (withPort (.reporter (.clear 0 1)) (inState .live)) = .next t) ∧
    (∃ t, exec .resetPartTimeout (withPort (.reporter (.read 0 1)) (inState .live)) = .next t) :=
  ⟨⟨_, by decide +kernel, rfl, rfl⟩, ⟨_, rfl⟩, ⟨_, rfl⟩⟩

/-- A Reset Part taken, its time come. -/
def resetDue : State := { zeroingState with session := { zeroingState.session with resetPartDue := some 0 } }

/-- The response of a Reset Part that waits to be read. -/
def resetAnswer : Response := { code := 0x34#8, tag := 1#8, status := .ok, payload := [] }

theorem witness_WarmResetKeepsTheSettings :
    (resetDue.pins.rstnHeld = false ∧ resetDue.session.resetPartDue = some 0 ∧ 0 ≤ resetDue.now) ∧
    (∀ s : State, s = { resetDue with reporter := { resetDue.reporter with exch := .ready resetAnswer } } →
      s.pins.rstnHeld = false ∧ s.session.resetPartDue ≠ none ∧ s.reporter.exch = .ready resetAnswer ∧ resetAnswer.size ≤ 6) ∧
    resetDue.dict.mainState ≠ .ready ∧ (withMain [] resetDue).dict.mainState = .ready := by
  refine ⟨by decide +kernel, ?_, by decide +kernel⟩
  rintro s rfl
  exact ⟨rfl, by decide +kernel, rfl, by decide⟩

theorem witness_ResetAbandonsZeroing :
    resetDue.ksu.zeroing.isSome = true ∧ resetDue.pins.rstnHeld = false ∧ resetDue.session.resetPartDue = some 0 ∧ 0 ≤ resetDue.now := by
  decide +kernel

theorem witness_RstnReleaseSamplesSbarAndGate :
    ({ State.reset with pins := { State.reset.pins with rstnHeld := true } }).pins.rstnHeld = true ∧ State.reset.pins.rstnHeld = false :=
  ⟨rfl, rfl⟩

/-- Recovery about to read a slot. -/
def recoveringAt (cursor : Nat) (t : SlotTable) : State :=
  { State.reset with journal := { State.reset.journal with cursor := cursor, slots := t } }

theorem witness_RecoveryReadClassifiesTheSlot :
    (recoveringAt 0 [(0, .bad)]).session.st = .start ∧ (recoveringAt 0 [(0, .bad)]).pins.rstnHeld = false ∧
    nextRead (recoveringAt 0 [(0, .bad)]).journal.slots 0 = some 1 ∧ nextRead (recoveringAt 2047 []).journal.slots 2047 = some 2047 := by
  decide +kernel

theorem witness_RecoveryCompleteEntersStandby :
    let t : SlotTable := [(5, .stored { seq := 4294967294, session := 65535, count := 1, firstEntry := 4294967294 })]
    nextRead t 2048 = none ∧ highestOf (·.seq) (storedBlocks (dedupe t)) < 4294967295 ∧
    highestOf (fun i => i.firstEntry + i.count - 1) (storedBlocks (dedupe t)) < 4294967295 := by decide +kernel

/-- The scan at the last key, with a chord open or none. -/
def sampled (k : Key) (c : Option Chord) (st : SessState) : State :=
  { inState st with ksu := { Ksu.cold with scanPos := 22, keys := Ksu.cold.keys.set 22 k }, chords := { chord := c, strokes := 0 } }

/-- A chord of key 0. -/
def chordOf0 : Chord := { press := BitVec.twoPow 23 0, start := 0, held := false, stuckExcluded := false, hold := some 2000 }

/-- A key one sample short of DOWN. -/
def pressing : Key := { Key.cold with st := .pressing, count := 1 }

/-- A key at a light threshold of 300. -/
def lightKey : Key := { Key.cold with cond := { Key.cold.cond with light := 300 } }

/-- A STUCK key with a count. -/
def stuckKey (n : Nat) : Key := { Key.cold with st := .stuck, count := n }

theorem test_key_sample_opens_a_chord_and_marks_a_light_touch :
    afterwards (.keySample 748#12)
      { inState .live with ksu := { Ksu.cold with scanPos := 1, keys := Ksu.cold.keys.set 1 pressing } } (fun t => t.chords.chord) =
      some (some { press := keys [1], start := 5000, held := false, stuckExcluded := false, hold := some 2000 }) ∧
    afterwards (.keySample 348#12) (sampled lightKey (some chordOf0) .live) (fun t => (t.chords.chord, (keyAt t 22).touched)) =
      some (some chordOf0, true) ∧
    afterwards (.keySample 347#12) (sampled lightKey (some chordOf0) .live) (fun t => (keyAt t 22).touched) = some false := by
  decide +kernel

/-- A zeroing taken when key `i` is next, each key with the sums given. -/
def zeroingAt (begun : Bool) (i : Nat) (a : ZeroAcc) : State :=
  { inState .standby with ksu := { Ksu.cold with scanPos := i, zeroing := some { begun := begun, accs := List.replicate 23 a } } }

theorem witness_KeySampleStepsOneKey :
    let s := sampled pressing none .live
    ((s.pins.rstnHeld = false ∧ s.ksu.keys.length = 23 ∧ s.ksu.scanPos < 23) ∧
    ((pressing.step 2 2 64 (conditionDepth 0 64 648)).2 = .wentDown ∧ s.session.st = .live ∧ pressing.ignore = false ∧
      s.chords.chord = none ∧ (sampled pressing (some chordOf0) .live).chords.chord = some chordOf0 ∧
      (sampled pressing none .recess).session.st ≠ .live ∧ ({ pressing with ignore := true }).ignore = true) ∧
    (pressing.st ≠ .up ∧ (pressing.step 2 2 64 599).1.st = .up) ∧
    ((lightKey.step 2 2 64 300).1.st = .up ∧ lightKey.cond.light ≤ 300 ∧ 299 < lightKey.cond.light ∧ ({ lightKey with touched := true }).touched = true) ∧
    ((stuckKey 0).st = .stuck ∧ releaseThreshold (stuckKey 0).cond.press 64 ≤ 536 ∧ 535 < releaseThreshold (stuckKey 0).cond.press 64 ∧
      (stuckKey 0).count + 1 < 2 ∧ 2 ≤ (stuckKey 1).count + 1) ∧
    (s.ksu.zeroing = none ∧ (zeroingAt false 22 ZeroAcc.zero).ksu.scanPos ≠ 0 ∧ (zeroingAt false 0 ZeroAcc.zero).ksu.scanPos = 0 ∧
      ((zeroingAt true 22 ZeroAcc.zero).ksu.zeroing.bind (fun z => z.accs[22]?)) = some ZeroAcc.zero ∧
      (zeroingState.ksu.zeroing.bind (fun z => z.accs[0]?)).map (·.count) = some 64)) ∧
    (∀ i a, (zeroingAt true i a).pins.rstnHeld = false ∧ (zeroingAt true i a).ksu.keys.length = 23) := by
  exact ⟨by decide +kernel, fun i a => ⟨rfl, rfl⟩⟩

theorem witness_PressRunReachesDown :
    (Key.cold.st = .up ∧ Key.cold.cond.press ≤ 600) ∧
    (({ Key.cold with st := .pressing, count := 1 }).st = .pressing ∧ 1 + 1 < 3 ∧ 2 ≤ 1 + 1 ∧ 599 < Key.cold.cond.press) := by decide

theorem witness_ReleaseRunReachesUp :
    releaseThreshold Key.cold.cond.press 64 ≤ 536 ∧ 535 < releaseThreshold Key.cold.cond.press 64 ∧
    releaseThreshold 32 255 ≤ 1 ∧ 0 < releaseThreshold 32 255 := by decide

/-- A chord of one key that the next sample brings to UP. -/
def lastHeld : State :=
  filling { inState .live with
    ksu := { Ksu.cold with keys := Ksu.cold.keys.set 0 { Key.cold with st := .releasing, count := 1 } }
    chords := {
      chord := some { press := BitVec.twoPow 23 0, start := 0, held := false, stuckExcluded := false, hold := some 0 }
      strokes := 4294967294 } } []

theorem witness_LastReleaseFormsTheStroke :
    (lastHeld.pins.rstnHeld = false ∧ lastHeld.ksu.keys.length = 23 ∧ lastHeld.ksu.scanPos < 23 ∧
    (lastHeld.chords.strokes < 4294967295 ∧ 4294967295 ≤ ({ lastHeld.chords with strokes := 4294967295 }).strokes) ∧
    (BitVec.twoPow 23 0).getLsbD lastHeld.ksu.scanPos = true ∧
    ((keyAt lastHeld 0).step 2 2 64 (conditionDepth 0 64 583)).2 = .wentUp ∧ lastHeld.journal.cond = .normal ∧
    (findFilling lastHeld.journal.buffers).isSome = true) ∧
    ∀ j, j ≠ lastHeld.ksu.scanPos → (BitVec.twoPow 23 0).getLsbD j = true → (keyAt lastHeld j).isHeld = false := by
  refine ⟨by decide +kernel, ?_⟩
  intro j hj h
  rw [BitVec.getLsbD_twoPow] at h
  simp at h
  exact absurd h.symm hj

theorem witness_HoldExpiryMakesKeysStuck :
    ∃ c, lastHeld.chords.chord = some c ∧ c.hold = some 0 ∧ 0 ≤ lastHeld.now ∧ notHeld c.press 0 lastHeld.ksu.keys = 0 ∧
      ∃ c', chordState.chords.chord = some c' ∧ notHeld c'.press 0 chordState.ksu.keys ≠ 0 ∧ chordState.chords.strokes < 4294967295 ∧
        4294967295 ≤ ({ chordState.chords with strokes := 4294967295 }).strokes :=
  ⟨_, rfl, rfl, by decide, by decide +kernel, _, rfl, by decide +kernel⟩

theorem witness_ZeroingSettlesTheOffsets :
    ∃ z, zeroingState.ksu.zeroing = some z ∧ z.finished = true ∧ z.accs[1]? = some { sum := 3137, count := 64, min := 44, max := 54 } ∧
      z.accs[18]? = some { sum := 40000, count := 64, min := 618, max := 632 } ∧
      z.accs[19]? = some { sum := 6400, count := 64, min := 61, max := 140 } ∧ (3137 + 32) / 64 ≤ 559 ∧ 559 < (40000 + 32) / 64 ∧
      64 < 140 - 61 ∧ (keyAt zeroingState 19).cond.offset = 5 :=
  ⟨_, rfl, by decide +kernel⟩

theorem witness_KeySettingsAreWrittenClamped :
    Takes .reporter (inState .standby) ∧ (inState .standby).ksu.zeroing = none ∧ Takes .reporter (inState .live) ∧
    Takes .reporter zeroingState ∧ zeroingState.ksu.zeroing ≠ none :=
  ⟨takes_in _ _ (by decide), rfl, takes_in _ _ (by decide), ⟨rfl, rfl, by decide⟩, by decide +kernel⟩

theorem witness_ChordOpenOnlyInLive :
    ∃ t, ChordInLive { lastHeld with pending := [.holdTimerExpiry] } ∧ step { lastHeld with pending := [.holdTimerExpiry] } = .next t :=
  ⟨_, fun _ => rfl, rfl⟩

/-- A journal with one buffer QUEUED and the last-assigned slot the top one. -/
def queuedState : State :=
  { inState .live with journal := { State.reset.journal with
      buffers := { State.reset.journal.buffers with q3 := .queued (block 7 []) none }, queue := [3], lastSlot := 2047, slots := [(0, .bad)] } }

theorem witness_WriteStartTakesTheNextFreeSlot :
    queuedState.journal.port = .idle ∧ queuedState.journal.cond.isFaulted = false ∧ queuedState.journal.queue = [3] ∧
    queuedState.journal.buffers.get 3 = .queued (block 7 []) none ∧
    nextFree queuedState.journal.slots queuedState.journal.lastSlot = some 1 := by decide +kernel

theorem witness_ReporterTransferYieldsToAWrite :
    (State.reset.journal.port = .idle ∧ writeReady { State.reset with journal := { State.reset.journal with waiting := some (.read 0 1) } } = false ∧
      writeReady queuedState = true) ∧
    ({ State.reset.journal with cond := .faulted .writeFailures, waiting := some (.clear 2047 1) }).cond.isFaulted = true := by
  decide +kernel

theorem witness_WriteCompletionStoresTheBlock :
    suspendedState.journal.port = .write 0 1413 ∧ suspendedState.journal.buffers.get 0 = .writing (block 9049 []) 1413 ∧
    (suspendedState.journal.cond = .suspended ∧ findFilling suspendedState.journal.buffers = none ∧
      suspendedState.journal.blockSpent = false ∧ suspendedState.journal.nextEntry < 4294967295) ∧
    (∀ s : State, s = { suspendedState with journal := { suspendedState.journal with cond := .faulted .sequenceExhausted } } →
      s.journal.port = .write 0 1413 ∧ s.journal.buffers.get 0 = .writing (block 9049 []) 1413 ∧ s.journal.cond ≠ .suspended) ∧
    (sparseRising suspendedState.journal.slots ∧ slotFree suspendedState.journal.slots 1413 = true ∧
      freeSlots suspendedState.journal.slots = 65 + ({ suspendedState.journal with failedClears := 1983 }).failedClears) ∧
    (suspendedState.session.st ≠ .closing ∧ (∀ j : Fin 4, j ≠ 0 →
      (({ State.reset.journal.buffers with q0 := Buffer.writing (block 7 []) 3, q3 := .filling (block 8 []) }).get j).code ≤ 1)) := by
  refine ⟨by decide +kernel, by decide +kernel, by decide +kernel, ?_, by decide +kernel, by decide +kernel⟩
  rintro s rfl
  decide +kernel

theorem witness_WriteFailureMarksTheSlotBad :
    suspendedState.journal.port = .write 0 1413 ∧ suspendedState.journal.buffers.get 0 = .writing (block 9049 []) 1413 ∧
    (sparseRising suspendedState.journal.slots ∧ slotFree suspendedState.journal.slots 1413 = true) ∧
    suspendedState.journal.failures = 0 ∧ suspendedState.journal.cond.isFaulted = false ∧ Memory.wf suspendedState.memory := by
  decide +kernel

/-- A reporter transfer runs and its request is held EXECUTING. -/
def transferState (p : RepTransfer) (r : SlotRec) : State :=
  { inState .live with
    journal := { State.reset.journal with port := .reporter p, slots := [(2047, r)] }
    reporter := { State.reset.reporter with exch := .executing 0x40#8 1#8 } }

/-- A slot of zeros but for the CRC its header holds. -/
def slotOf (crc : BitVec 16) : List Byte := List.replicate 30 0#8 ++ crcField crc ++ List.replicate 1024 0#8

/-- The CRC over the zeros of such a slot. -/
def zeroCrc : BitVec 16 := crc16 (List.replicate 30 0#8 ++ List.replicate 1024 0#8)

/-- The bytes of a slot whose CRC is right or wrong. -/
def slotBytes (good : Bool) : List Byte := slotOf (if good then zeroCrc else ~~~zeroCrc)

/-- A read of such a slot ends. -/
def readEnds (good : Bool) (r : SlotRec) : State := { transferState (.read 2047 7) r with memory := [(2047, slotBytes good)] }

/-- For each slot record and each CRC, for the bytes held and for others the device delivers. -/
theorem witness_ReadCompletionAnswersTheBlock :
    let i : SlotInfo := { seq := 7, session := 1, count := 1, firstEntry := 1 }
    ∀ good : Bool,
      ((readEnds good (.stored i)).journal.port = .reporter (.read 2047 7) ∧ (readEnds good (.stored i)).reporter.exch = .executing 0x40#8 1#8 ∧
        sparseGet (readEnds good (.stored i)).journal.slots 2047 = some (.stored i) ∧
        (readEnds good (.stored i)).memory.read 2047 = slotBytes good) ∧
      ((readEnds good (.corrupt i)).journal.port = .reporter (.read 2047 7) ∧ (readEnds good (.corrupt i)).reporter.exch = .executing 0x40#8 1#8 ∧
        sparseGet (readEnds good (.corrupt i)).journal.slots 2047 = some (.corrupt i) ∧
        (readEnds good (.corrupt i)).memory.read 2047 = slotBytes good) ∧
      crcGood (slotBytes good) = good ∧ (slotBytes good).length = 1056 := by
  refine fun good => ⟨⟨rfl, rfl, rfl, rfl⟩, ⟨rfl, rfl, rfl, rfl⟩, ?_, ?_⟩
  · rw [slotBytes, slotOf, crcGood_append _ _ _ List.length_replicate]
    show decide (zeroCrc = _) = good
    cases good <;> simp
  · rw [slotBytes, slotOf, List.length_append, List.length_append, crcField_eq, List.length_replicate, List.length_replicate]
    rfl

theorem witness_HeaderClearFreesTheSlot :
    let s := transferState (.clear 2047 7) .bad
    let held : SlotTable := [(2047, .stored { seq := 7, session := 1, count := 1, firstEntry := 1 })]
    (s.journal.port = .reporter (.clear 2047 7) ∧ s.reporter.exch = .executing 0x40#8 1#8 ∧ Memory.wf s.memory) ∧
    (sparseRising held ∧ slotFree held 2047 = false ∧ freeSlots held = 65 + ({ s.journal with failedClears := 1982 }).failedClears) ∧
    ({ s.journal with failures := 1 }).failures = 1 ∧ s.journal.cond.isFaulted = false := by decide +kernel

theorem witness_IntervalClosesTheFillingBlock :
    (filling (inState .live) []).journal.intervalTimer = some 2000 ∧ (filling (inState .live) []).now < 2000 ∧
    2000 ≤ ({ filling (inState .live) [] with now := 2000 }).now ∧ (findFilling (filling (inState .live) []).journal.buffers).isSome = true := by
  decide +kernel

theorem witness_DrainRequestsAreTaken :
    let t : SlotTable := [(0, .stored { seq := 4294967295, session := 1, count := 1, firstEntry := 1 }),
                          (2047, .corrupt { seq := 1, session := 1, count := 1, firstEntry := 1 })]
    Takes .reporter (inState .live) ∧ ((findStored t 4294967295).map Prod.fst = some 0 ∧ (oldestStored t).map Prod.fst = some 2047 ∧
    findStored t 7 = none ∧ oldestStored [] = none ∧ inBuffer (filling (inState .live) []).journal.buffers 7 = true ∧
    inBuffer (filling (inState .live) []).journal.buffers 8 = false ∧ JCond.isFaulted (.faulted .writeFailures) = true) ∧
    Takes .reporter (filling (inState .live) []) :=
  ⟨takes_in _ _ (by decide), by decide +kernel, ⟨rfl, rfl, by decide⟩⟩

theorem witness_AppendPutsOrCountsTheEntry :
    let s := fun n => filling (inState .live) (List.replicate n (ent .mark 0#8 1 1 1 1))
    let len := fun t : State => (findFilling t.journal.buffers).map (fun p => p.2.entries.length)
    ((s 62).journal.cond = .normal ∧ len (s 62) = some 62 ∧ len (s 63) = some 63 ∧ (s 62).journal.nextEntry < 4294967295 ∧
      4294967295 ≤ ({ (s 62).journal with nextEntry := 4294967295 }).nextEntry) ∧
    ((inState .live).journal.cond = .normal ∧ findFilling (inState .live).journal.buffers = none ∧
      lowestFree (inState .live).journal.buffers = some 0 ∧ (inState .live).journal.blockSpent = false ∧
      ({ (inState .live).journal with restartPending := true, nextEntry := 4294967293 }).nextEntry + 1 < 4294967295 ∧
      ({ (inState .live).journal with blockSpent := true }).blockSpent = true) ∧
    (findFilling suspendedState.journal.buffers = none ∧ lowestFree suspendedState.journal.buffers = none ∧
      ({ suspendedState.journal with cond := .normal }).cond = .normal) ∧
    suspendedState.journal.cond ≠ .normal := by decide +kernel

theorem witness_StoresStayCanonical :
    ∃ t, StoresCanonical { queuedState with pending := [.blockWriteStart] } ∧ step { queuedState with pending := [.blockWriteStart] } = .next t :=
  ⟨_, ⟨by decide +kernel, by decide +kernel⟩, rfl⟩

theorem witness_BeginMainLoadDiscardsTheMainTier :
    Takes .reporter (inState .standby) ∧ (inState .standby).dict.mainState ≠ .building ∧ Takes .reporter (inState .closing) :=
  ⟨takes_in _ _ (by decide), by decide +kernel, takes_in _ _ (by decide)⟩

/-- A build that runs in a session while the response of End Main Load still waits. -/
def buildingState : State :=
  { inState .live with
    dict := { (inState .live).dict with mainState := .building }
    reporter := { State.reset.reporter with exch := .ready { code := 0x22#8, tag := 1#8, status := .ok, payload := [] } } }

theorem witness_MainLoadFillsAndBuildsTheTier :
    Takes .reporter (inState .standby) ∧ keyInvalid (dictEntryOf { key := [0x400#24], text := [], flags := 0#8 }).key = true ∧
    keyInvalid (dictEntryOf { key := List.replicate 6 0x7FFFFF#24, text := [], flags := 0#8 }).key = false ∧
    (dictEntryOf { key := [1#24], text := [], flags := 0x20#8 }).fmt.suppress = true ∧ 40 < (List.replicate 41 0x41#8).length ∧
    1572864 < ({ Dict.cold with poolUse := 1572864 }).poolUse + 1 ∧
    (buildingState.dict.mainState = .building ∧ buildingState.session.st = .live ∧ ¬Takes .reporter buildingState ∧
      (inState .live).dict.mainState ≠ .building) :=
  ⟨takes_in _ _ (by decide), by decide +kernel, by decide +kernel, by decide +kernel, by decide, by decide, by decide +kernel, rfl,
    fun h => Exchange.noConfusion h.2.1, by decide⟩

/-- A state with a group open. -/
def grouped (g : List Staged) (s : State) : State := { s with dict := { s.dict with group := some g } }

theorem witness_GroupRequestsStageChanges :
    (Takes .reporter (grouped [] (inState .recess)) ∧ Takes .reporter (inState .closing) ∧ Takes .reporter (inState .standby) ∧
      Takes .reporter (grouped [] (inState .standby))) ∧
    ((inState .recess).dict.group = none ∧ (inState .standby).dict.group = none ∧ (grouped [] (inState .standby)).dict.group ≠ none) ∧
    (badSet 0x7FFFFF#24 = false ∧ keyInvalid ([0x400#24].map toKeySet) = true ∧ keyInvalid ([0x401#24].map toKeySet) = false) ∧
    ((List.replicate 40 0x41#8).length ≤ 40 ∧ 40 < (List.replicate 41 0x41#8).length) ∧
    (∀ x ∈ List.replicate 32 (Staged.remove [1#23]), x.key ≠ [0x401#24].map toKeySet) ∧
    (∃ x ∈ [Staged.remove [0x401#23]], x.key = [0x401#24].map toKeySet) ∧ (List.replicate 31 (Staged.remove [1#23])).length < 32 ∧
    32 ≤ (List.replicate 32 (Staged.remove [1#23])).length :=
  ⟨⟨⟨rfl, rfl, by decide⟩, takes_in _ _ (by decide), takes_in _ _ (by decide), ⟨rfl, rfl, by decide⟩⟩, by decide +kernel⟩

theorem witness_AbandonGroupDiscardsTheChanges :
    Takes .reporter (grouped [] (inState .live)) ∧ (grouped [] (inState .live)).dict.group = some [] ∧ (inState .live).dict.group = none :=
  ⟨⟨rfl, rfl, by decide⟩, rfl, rfl⟩

theorem witness_CommitAppliesTheGroupWhole :
    Takes .reporter (nearFull stagedState) ∧ joinable (nearFull stagedState) = true ∧
    (∀ g, stagedState.dict.group = some g → (stagedState.dict.job.map (·.key)).Nodup ∧ (g.map Staged.key).Nodup ∧
      stagedState.dict.job.length + 2 - 0 ≤ 2048 ∧
      (g.filter (fun c => match c with | .define e => !(stagedState.dict.job.any (fun x => x.key = e.key)) | .remove _ => false)).length = 2) ∧
    stagedState.dict.group.isSome = true ∧
    (∀ s : State, s = grouped [.remove [goodKey], .define (entry [morningKey] []), .define (entry [creekKey] [])]
        { inState .live with dict := { Dict.cold with job := List.replicate 2048 (entry [goodKey] []) } } →
      Takes .reporter s ∧ s.dict.group.isSome = true ∧ 2048 < s.dict.job.length + 2 - 1) := by
  refine ⟨⟨rfl, rfl, by decide⟩, by decide +kernel, ?_, rfl, ?_⟩
  · rintro g ⟨⟩
    decide +kernel
  · rintro s rfl
    exact ⟨⟨rfl, rfl, by decide⟩, rfl, by decide +kernel⟩

/-- A correction stroke taken with strokes waiting. -/
def dropping (ks : List KeySet) : State :=
  let s := handed [strokeOn 3 (keys [10])] (withMain goodMorning (inState .live))
  { s with trans := { s.trans with lookahead := ks.map (fun p => { seq := 1, press := p, cls := .opn }) } }

/-- Line 41, opened by WRAP below line 40, with a correction stroke handed over; the unit that opened it stands newest. -/
def reopening (st : LineState) : State :=
  let s := withLines [lineRec 40 2 15 .opn st 5 wide, lineRec 41 2 16 .opn .opn 1 (txt ['I'])] 41 2 17 (some 41)
    (handed [strokeOn 3 (keys [10])] (inState .live))
  { s with trans := { s.trans with history := [{
      strokes := [{ seq := 2, press := goodKey, cls := .opn }], kind := .entry, text := txt ['I'], fmt := Fmt.none, cls := .opn
      before := Carry.clear, placement := some { serial := 41, column := 0, count := 1, opening := .wrap }, anchor := some 41 }] } }

/-- The first unsettled line at or above a serial. -/
def firstUnsettled (s : State) (n : Nat) : Option Nat :=
  (s.lines.records.find? (fun y => decide (n ≤ y.serial) && y.unsettled)).map (·.serial)

theorem test_correction_reopens_the_line_below :
    afterwards .strokeHandover (reopening .closed) (fun t =>
      (t.lines.openLine, t.lines.records.map (fun l => (l.serial, l.state)), t.lines.nextPage, t.lines.nextLine)) =
      some (some 40, [(40, .opn)], 2, 16) ∧
    afterwards .strokeHandover (reopening .settled) (fun t => (t.lines.openLine, t.trans.history.length)) = some (none, 0) := by decide +kernel

theorem witness_StrokeHandoverTakesTheOldestStroke :
    let star : KeySet := BitVec.twoPow 23 10
    let unit := fun s : State => s.trans.history.getLast?
    (waiting.trans.handed = [strokeOn 2 morningKey] ∧ waiting.session.st = .live ∧ morningKey ≠ star ∧
      extendable waiting.dict [goodKey] = true ∧ extendable waiting.dict [morningKey] = false ∧
      (resolve waiting.dict [morningKey]).entry.isSome = true ∧ (resolve waiting.dict [creekKey]).entry = none) ∧
    ((strokeOn 3 (keys [10])).press = star ∧ (inState .live).trans.history = [] ∧ (inState .closing).session.st ≠ .live) ∧
    ((dropping [goodKey]).trans.lookahead.dropLast = [] ∧ extendable (dropping []).dict [goodKey] = true ∧
      extendable (dropping []).dict [morningKey] = false ∧ (dropping [morningKey, goodKey]).trans.lookahead.dropLast ≠ [] ∧
      (dropping (List.replicate 6 goodKey)).trans.lookahead.length < 7) ∧
    (corrected.trans.lookahead = [] ∧ (unit corrected).map (fun u => (u.strokes.dropLast.length, u.placement.map (·.column))) = some (1, some 0) ∧
      below corrected.lines.records 1 = none ∧ firstUnsettled corrected 1 = some 1) ∧
    ((unit unwrapState).map (fun u => u.placement.map (fun p => (p.serial, p.column))) = some (some (40, 14)) ∧
      (findLine unwrapState.lines.records 40).map (·.unsettled) = some true ∧ firstUnsettled unwrapState 41 = some 41 ∧
      firstUnsettled unwrapState 42 = none) ∧
    ((unit (reopening .closed)).map (fun u => (u.strokes.dropLast, u.placement.map (·.opening))) = some ([], some .wrap) ∧
      (below (reopening .closed).lines.records 41).map (·.state) = some .closed ∧
      (findLine (reopening .closed).lines.records 40).map (·.state) = some .closed ∧
      (below (reopening .settled).lines.records 41).map (·.state) = some .settled) := by decide +kernel

/-- The word "good" about to join an open line with just room for it. -/
def joinState : State :=
  let s := withLines [lineRec 1 1 1 .opn .opn 65535 (List.replicate 43 0x41#8)] 1 1 2 (some 1)
    (handed [strokeOn 1 goodKey] (inState .live))
  { s with dict := { s.dict with mainState := .ready, main := [entry [goodKey] ['g', 'o', 'o', 'd']] } }

theorem witness_TranslatedWordJoinsTheOpenLine :
    let e := entry [goodKey] ['g', 'o', 'o', 'd']
    let l := lineRec 1 1 1 .opn .opn 65535 (List.replicate 43 0x41#8)
    let full := withLines [{ l with text := List.replicate 44 0x41#8 }] 1 1 2 (some 1) joinState
    let stored := withLines ((List.range' 1 4096).map (fun n => lineRec n 1 1 .opn .settled 1 [])) 4294967294 1 2 none joinState
    (joinState.trans.handed = [strokeOn 1 goodKey] ∧ joinState.session.st = .live ∧ goodKey ≠ BitVec.twoPow 23 10 ∧
      joinState.trans.lookahead = [] ∧ extendable joinState.dict [goodKey] = false ∧ (resolve joinState.dict [goodKey]).entry = some e) ∧
    OneWord e joinState ∧ WordFits e .opn 1 l joinState ∧
    ((withLines [] 0 1 1 none joinState).lines.openLine = none ∧ e.text.length ≤ ({ joinState.lines with width := 24 }).width) ∧
    (findLine full.lines.records 1 = some { l with text := List.replicate 44 0x41#8 } ∧ full.lines.width < 44 + 1 + e.text.length ∧
      full.lines.counter < 4294967295 ∧ full.lines.records.length < 4096 ∧ findLine full.lines.records 2 = none) ∧
    (4096 ≤ stored.lines.records.length ∧ findLine stored.lines.records 4294967295 = none ∧
      (stored.lines.records.find? (fun y => y.state = .settled || y.state = .withdrawn)).map (·.serial) = some 1) := by
  refine ⟨by decide +kernel, ?_, ?_, by decide +kernel, by decide +kernel, by simp [withLines], ?_, rfl⟩
  · unfold OneWord; decide +kernel
  · unfold WordFits OneWord; decide +kernel
  · simp [withLines, findLine, lineRec]
    omega

theorem test_word_joins_the_open_line :
    afterwards .strokeHandover joinState (fun t => (textOf t 1, t.lines.counter)) =
      some (some (List.replicate 43 0x41#8 ++ txt [' ', 'g', 'o', 'o', 'd']), 1) := by decide +kernel

/-- Strokes as the lookahead holds them, numbered from 1. -/
def strokesOf (ks : List KeySet) : List TStroke := ks.mapIdx (fun i p => { seq := i + 1, press := p, cls := .opn })

/-- "good" and "dawn", a key of one stroke and a longer one that begins with it, and an open line of 24 characters. -/
def dawnState (st : SessState) (k : Stroke) (ks : List KeySet) : State :=
  let s := withLines [lineRec 1 1 1 .opn .opn 1 wide] 1 1 2 (some 1)
    (withMain [entry [goodKey] ['g', 'o', 'o', 'd'], entry [goodKey, morningKey] ['d', 'a', 'w', 'n']] (handed [k] (inState st)))
  { s with trans := { s.trans with lookahead := strokesOf ks, timer := some 0, notices := 1 } }

/-- The dictionary of `dawnState`. -/
def dawnDict : Dict := (dawnState .live (strokeOn 1 goodKey) []).dict

/-- Strokes whose longest resolving front is 2 of the 4; then no front of the 2 that remain resolves, and one stroke is left. -/
def dawnKeys : List KeySet := [goodKey, morningKey, creekKey, goodKey]

/-- The units of those strokes. -/
def dawnUnits : List Formed :=
  [{ strokes := (strokesOf dawnKeys).take 2, kind := .entry, text := txt ['d', 'a', 'w', 'n'], fmt := Fmt.none },
   { strokes := [{ seq := 3, press := creekKey, cls := .opn }], kind := .untranslate, text := writtenForm creekKey, fmt := Fmt.none }]

/-- The stroke that is left. -/
def lastStroke : TStroke := { seq := 4, press := goodKey, cls := .opn }

/-- The unit it forms in a flush pass. -/
def lastUnit : Formed := { strokes := [lastStroke], kind := .entry, text := txt ['g', 'o', 'o', 'd'], fmt := Fmt.none }

/-- Where fronts fail in a dictionary, by a check of each. -/
theorem frontsFail (ks : List TStroke) (k : Nat)
    (h : (List.range (ks.length + 1)).all (fun j => decide (j ≤ k) || ((resolve dawnDict ((ks.take j).map (·.press))).entry.isNone)) = true) :
    ∀ j, k < j → j ≤ ks.length → FrontFails dawnDict ks j := by
  intro j h1 h2
  have := List.all_eq_true.mp h j (by simp; omega)
  simpa [FrontFails, show ¬j ≤ k by omega] using this

/-- The pass and the flush pass over `dawnKeys`: the longest front, an untranslate, and what remains waits, or leaves as a unit. -/
theorem dawn_forms :
    PassForms dawnDict false (strokesOf dawnKeys) dawnUnits [lastStroke] ∧
    PassForms dawnDict true (strokesOf dawnKeys) (dawnUnits ++ [lastUnit]) [] := by
  have h2 := frontsFail (strokesOf dawnKeys) 2 (by decide +kernel)
  have h0 := frontsFail ((strokesOf dawnKeys).drop 2) 0 (by decide +kernel)
  have h1 := frontsFail [lastStroke] 1 (by decide +kernel)
  have dawn : (resolve dawnDict (((strokesOf dawnKeys).take 2).map (·.press))).entry = some (entry [goodKey, morningKey] ['d', 'a', 'w', 'n']) := by
    decide +kernel
  have good : (resolve dawnDict [goodKey]).entry = some (entry [goodKey] ['g', 'o', 'o', 'd']) := by decide +kernel
  refine ⟨.entry _ 2 _ _ _ (.inr (.inr (by decide +kernel))) (by decide) (by decide) dawn h2 ?_,
    .entry _ 2 _ _ _ (.inl rfl) (by decide) (by decide) dawn h2 ?_⟩
  · refine .untranslate _ _ _ _ (.inr (.inr (by decide +kernel))) h0 (.waits _ (by decide) ?_)
    unfold PassGoes
    decide +kernel
  · exact .untranslate _ _ _ _ (.inl rfl) h0 (.entry [lastStroke] 1 _ _ _ (.inl rfl) (by decide) (by decide) good h1 .ends)

/-- The words of such units fit the open line. -/
theorem dawn_fits (st : SessState) (k : Stroke) (ks : List KeySet) :
    WordsFit (dawnUnits ++ [lastUnit]) 1 (lineRec 1 1 1 .opn .opn 1 wide) (dawnState st k ks) ∧
    WordsFit dawnUnits 1 (lineRec 1 1 1 .opn .opn 1 wide) (dawnState st k ks) := by
  refine ⟨⟨rfl, rfl, rfl, rfl, by decide +kernel, ?_⟩, ⟨rfl, rfl, rfl, rfl, by decide +kernel, ?_⟩⟩
  · show _ ≤ State.reset.lines.width
    decide +kernel
  · show _ ≤ State.reset.lines.width
    decide +kernel

/-- A lone stroke that resolves to nothing waits and no line is open. -/
def loneState (k : Stroke) : State := withLines [] 0 1 1 none (dawnState .live k [creekKey])

/-- The unit it forms. -/
def loneUnit : Formed :=
  { strokes := [{ seq := 1, press := creekKey, cls := .opn }], kind := .untranslate, text := writtenForm creekKey, fmt := Fmt.none }

/-- It forms an untranslate in a pass and in a flush pass. -/
theorem lone_forms (flush : Bool) : PassForms dawnDict flush (strokesOf [creekKey]) [loneUnit] [] :=
  .untranslate _ _ _ _ (.inr (.inr (by decide +kernel))) (frontsFail (strokesOf [creekKey]) 0 (by decide +kernel)) .ends

/-- What `UnitsPlaced` asks of a single unit with no line open holds of it. -/
theorem lone_opens (k : Stroke) :
    (loneState k).lines.openLine = none ∧ loneUnit.text ≠ [] ∧ 0x20#8 ∉ loneUnit.text ∧ loneUnit.fmt.newLine = false ∧
    (loneState k).trans.carry.cap = false ∧ loneUnit.text.length ≤ (loneState k).lines.width ∧
    (loneState k).lines.counter < 4294967295 ∧ (loneState k).lines.records.length < 4096 ∧
    findLine (loneState k).lines.records ((loneState k).lines.counter + 1) = none :=
  ⟨rfl, by decide +kernel, by decide +kernel, rfl, rfl, by show _ ≤ State.reset.lines.width; decide +kernel,
    by show 0 < 4294967295; decide, by show 0 < 4096; decide, rfl⟩

/-- The correction stroke as it is handed over. -/
def starStroke : Stroke := strokeOn 9 (keys [10])

/-- A unit of the strokes of `dawnKeys` and one more, about to be retracted. -/
def retracting : State :=
  let s := dawnState .live starStroke []
  { s with trans := { s.trans with history := [
      { strokes := strokesOf (dawnKeys ++ [morningKey]), kind := .entry, text := [], fmt := Fmt.none, cls := .opn
        before := { cap := true, attach := false, glue := false }, placement := none, anchor := none }] } }

/-- The passes of an ordinary stroke in LIVE, of one outside it, and of the two forms of a correction. -/
theorem witness_StrokeHandoverTakesTheOldestStroke_passes :
    let live := dawnState .live (strokeOn 4 goodKey) (dawnKeys.take 3)
    let late := dawnState .closing (strokeOn 4 goodKey) (dawnKeys.take 3)
    let drop := dawnState .live starStroke (dawnKeys ++ [morningKey])
    (live.trans.handed = [strokeOn 4 goodKey] ∧ live.session.st = .live ∧ goodKey ≠ BitVec.twoPow 23 10 ∧
      PassForms live.dict false (live.trans.lookahead ++ [lastStroke]) dawnUnits [lastStroke]) ∧
    (late.session.st ≠ .live ∧ PassForms late.dict true (late.trans.lookahead ++ [lastStroke]) (dawnUnits ++ [lastUnit]) []) ∧
    (starStroke.press = BitVec.twoPow 23 10 ∧ drop.trans.lookahead ≠ [] ∧
      PassForms drop.dict false drop.trans.lookahead.dropLast dawnUnits [lastStroke]) ∧
    (retracting.trans.lookahead = [] ∧ ∃ u, retracting.trans.history.getLast? = some u ∧
      PassForms retracting.dict false u.strokes.dropLast dawnUnits [lastStroke]) :=
  ⟨⟨rfl, rfl, by decide +kernel, dawn_forms.1⟩, ⟨by decide +kernel, dawn_forms.2⟩, ⟨by decide +kernel, by decide +kernel, dawn_forms.1⟩,
    rfl, _, rfl, dawn_forms.1⟩

/-- The flush pass over more strokes than its longest front, and over a lone stroke that resolves to nothing. -/
theorem witness_ResolutionExpiryFlushesTheLookahead_passes :
    let s := dawnState .live starStroke dawnKeys
    (s.trans.timer = some 0 ∧ PassForms s.dict true s.trans.lookahead (dawnUnits ++ [lastUnit]) []) ∧
    ((loneState starStroke).trans.timer = some 0 ∧
      PassForms (loneState starStroke).dict true (loneState starStroke).trans.lookahead [loneUnit] []) :=
  ⟨⟨rfl, dawn_forms.2⟩, rfl, lone_forms true⟩

/-- The pass over more strokes than its longest front, and over a lone stroke that resolves to nothing. -/
theorem witness_TierNoticeRunsAPass_passes :
    let s := dawnState .live starStroke dawnKeys
    (s.trans.notices = 0 + 1 ∧ PassForms s.dict false s.trans.lookahead dawnUnits [lastStroke]) ∧
    ((loneState starStroke).trans.notices = 0 + 1 ∧
      PassForms (loneState starStroke).dict false (loneState starStroke).trans.lookahead [loneUnit] []) :=
  ⟨⟨rfl, dawn_forms.1⟩, rfl, lone_forms false⟩

/-- The untranslate's text is its letters by key index: K, R, A, O, E, B and G. -/
theorem test_resolution_expiry_writes_an_untranslate :
    afterwards .resolutionTimerExpiry (dawnState .live starStroke dawnKeys) (fun t => (textOf t 1, t.trans.history.map (·.kind))) =
      some (some (wide ++ txt [' ', 'd', 'a', 'w', 'n', ' ', 'K', 'R', 'A', 'O', 'E', 'B', 'G', ' ', 'g', 'o', 'o', 'd']),
        [.entry, .untranslate, .entry]) := by decide +kernel

/-- Strokes waiting above an open line, with the resolution timer running and a tier-change notice waiting. -/
def passing (ks : List KeySet) : State :=
  { joinState with trans := { joinState.trans with
      lookahead := ks.map (fun p => { seq := 1, press := p, cls := .opn }), timer := some 0, notices := 1 } }

theorem witness_ResolutionExpiryFlushesTheLookahead :
    let e := entry [goodKey] ['g', 'o', 'o', 'd']
    (waiting.trans.timer = some 1500 ∧ waiting.now < 1500 ∧ 1500 ≤ ({ waiting with now := 1500 }).now) ∧
    ((passing []).trans.timer = some 0 ∧ 0 ≤ (passing []).now ∧ (passing []).trans.lookahead = [] ∧ (passing [goodKey]).trans.lookahead ≠ [] ∧
      (resolve (passing [goodKey]).dict [goodKey]).entry = some e ∧ (resolve (passing [creekKey]).dict [creekKey]).entry = none) ∧
    WordFits e (unitClass (passing [goodKey]).trans.lookahead) 1 (lineRec 1 1 1 .opn .opn 65535 (List.replicate 43 0x41#8)) (passing [goodKey]) := by
  refine ⟨by decide +kernel, by decide +kernel, ?_⟩
  unfold WordFits OneWord; decide +kernel

theorem witness_TierNoticeRunsAPass :
    let s := { waiting with trans := { waiting.trans with notices := 1 } }
    let e := entry [goodKey] ['g', 'o', 'o', 'd']
    (s.trans.notices = 0 + 1 ∧ s.trans.lookahead ≠ [] ∧ s.trans.lookahead.length < 6 ∧
      extendable s.dict (s.trans.lookahead.map (·.press)) = true ∧ waiting.trans.notices = 0) ∧
    ((passing []).trans.notices = 0 + 1 ∧ (passing []).trans.lookahead = [] ∧ extendable (passing [goodKey]).dict [goodKey] = false ∧
      (resolve (passing [goodKey]).dict [goodKey]).entry = some e ∧ extendable (passing [creekKey]).dict [creekKey] = false ∧
      (resolve (passing [creekKey]).dict [creekKey]).entry = none) ∧
    (6 ≤ (passing (List.replicate 6 goodKey)).trans.lookahead.length ∧
      (resolve { (passing []).dict with job := [entry (List.replicate 6 goodKey) []] } (List.replicate 6 goodKey)).entry.isSome = true) ∧
    WordFits e (unitClass (passing [goodKey]).trans.lookahead) 1 (lineRec 1 1 1 .opn .opn 65535 (List.replicate 43 0x41#8)) (passing [goodKey]) := by
  refine ⟨by decide +kernel, by decide +kernel, by decide +kernel, ?_⟩
  unfold WordFits OneWord; decide +kernel

theorem test_tier_notice_places_the_unit :
    afterwards .tierChangeNotice (passing [goodKey]) (fun t => (textOf t 1, t.trans.lookahead, t.trans.timer, t.trans.notices)) =
      some (some (List.replicate 43 0x41#8 ++ txt [' ', 'g', 'o', 'o', 'd']), [], none, 0) := by decide +kernel

/-- One line of a state, in a session state. -/
def oneLine (st : LineState) (ss : SessState) : State := withLines [lineRec 9 1 9 .opn st 65535 []] 9 1 10 none (inState ss)

theorem witness_EditLineRewritesASettledLine :
    Takes .reporter (oneLine .settled .standby) ∧ ((findLine (oneLine .settled .standby).lines.records 9).map (·.state) = some .settled ∧
    (List.replicate 48 0x41#8).length ≤ (oneLine .settled .standby).lines.width ∧
    (oneLine .settled .standby).lines.width < (List.replicate 49 0x41#8).length ∧
    (findLine (oneLine .closed .live).lines.records 9).map (·.state) ≠ some .settled ∧ findLine (oneLine .closed .live).lines.records 8 = none) ∧
    Takes .reporter (oneLine .settled .closing) ∧
    (FeedState.off.enabled = false ∧ Takes .reporter (setFeedCtx 3 { Feed.cold with state := .held, edits := List.range 16 } (oneLine .settled .live)) ∧
      9 ∈ List.range 16 ∧ 9 ∉ List.range' 10 15 ∧ (List.range' 10 15).length < 16 ∧ 9 ∉ List.range' 10 16 ∧ 16 ≤ (List.range' 10 16).length) ∧
    (Takes .reporter (nearFull (oneLine .settled .recess)) ∧ joinable (nearFull (oneLine .settled .recess)) = true) :=
  ⟨⟨rfl, rfl, by decide⟩, by decide +kernel, ⟨rfl, rfl, by decide⟩, ⟨rfl, ⟨rfl, rfl, by decide⟩, by decide⟩, ⟨rfl, rfl, by decide⟩, by decide +kernel⟩

/-- The EDIT entry: the line's class, its serial, 1:9, revision 65,535 and 2 characters. -/
theorem test_edit_line_asks_for_its_entry :
    afterwards (.editLine .reporter 1#8 (.fields { serial := 9, text := [0x41#8, 0x42#8] })) (filling (oneLine .settled .recess) []) entriesOf =
      some [ent .edit 0#8 9 5000 0x000109 0xFFFF02] := by decide +kernel

theorem witness_SbarIsFollowedThroughTheDeglitch :
    (inState .live).pins.rstnHeld = false ∧ (inState .live).pins.sbar = false ∧ (inState .live).cls.sbar = false ∧
    (inState .live).cls.setting ≠ 0 ∧ sidebarState.cls.timer = some 20 ∧ 20 ≤ sidebarState.now ∧
    ({ sidebarState with now := 19 }).now < 20 ∧ ({ State.reset.cls with setting := 0, sbar := true }).setting = 0 := by decide +kernel

theorem witness_SetClassFormsTheClassAfresh :
    Takes .bench (inState .live) ∧ Cls.ofCode 2 = some .chambers ∧ (inState .live).cls.bench ≠ .chambers ∧ Cls.ofCode 0 = some .opn ∧
    (inState .live).cls.bench = .opn ∧ Takes .bench (inState .standby) ∧
    (findFilling (filling (inState .live) []).journal.buffers).isSome = true ∧ Takes .bench (filling (inState .live) []) :=
  ⟨takes_in _ _ (by decide), rfl, by decide +kernel, rfl, rfl, takes_in _ _ (by decide), by decide +kernel, ⟨rfl, rfl, by decide⟩⟩

theorem witness_EffectiveClassStaysFormed :
    ∃ t, ClassFormed { sidebarState with pending := [.deglitchExpiry] } ∧ step { sidebarState with pending := [.deglitchExpiry] } = .next t :=
  ⟨_, by unfold ClassFormed; decide +kernel, rfl⟩

/-- A feed of a state in a state. -/
def feedIn (f : Fin 4) (st : FeedState) (s : State) : State :=
  setFeedCtx f { Feed.cold with
    state := st, idleTimer := some 0, stallTimer := some 0
    test := some { asked := 1, sent := 1, outcome := .running, seq := testSeed } } s

/-- The same with a TEST frame in flight. -/
def flying (f : Fin 4) (st : FeedState) (s : State) : State := setFlight f (.test []) (feedIn f st s)

theorem witness_FeedPinsAreFollowed :
    (inState .live).pins.rdy.get 3 = false ∧ (setRdy 3 true (inState .live)).pins.rdy.get 3 = true ∧ (inState .live).pins.rstnHeld = false ∧
    (inState .live).pins.fgate3 = true ∧ ({ State.reset.pins with fgate3 := false }).fgate3 = false ∧
    (feed (feedIn 3 .stalled (inState .live)) 3).state = .stalled ∧ (feed (feedIn 3 .held (inState .live)) 3).state = .held := by
  decide +kernel

/-- F2 of the PUBLIC audience LIVE with a frame in flight, its low water at line 121, and some lines of the example of chapter 8. -/
def choosing (edits : List Nat) (rs : List Line) : State :=
  let s := setRdy 2 true { feedState with lines := { feedState.lines with records := rs } }
  setFeedCtx 2 { feed s 2 with flight := some (.test []), edits := edits, lowWater := 121, stallTimer := none } s

/-- The first line from the low water of `choosing` up that needs a frame, its state, and whether PUBLIC may see it. -/
def firstDue (s : State) : Option (Nat × LineState × Bool) :=
  (s.lines.records.find? (fun l => decide (121 ≤ l.serial) &&
    (if l.state = .withdrawn then l.sent.get 2 ≠ 0 && !l.withdrawSent.get 2
      else if visible .pub l.cls then l.revision ≠ l.sent.get 2 else decide ((feed s 2).announced < l.serial)))).map
    (fun l => (l.serial, l.state, visible .pub l.cls))

theorem witness_FrameCompletionReachesTheBoundary :
    let gone := { lineRec 126 4 25 .opn .withdrawn 2 [] with sent := (Quad.const 0).set 2 1 }
    ((feed (feedIn 0 .live (inState .live)) 0).flight = none ∧ (feed (flying 3 .stopping (inState .live)) 3).flight = some (.test []) ∧
      testRuns (feed { flying 3 .stopping (inState .live) with feeds := (setFeedCtx 3 { Feed.cold with state := .stopping } (inState .live)).feeds } 3)
        = false ∧
      (feed (flying 3 .test (inState .live)) 3).test.map (fun r => decide (r.asked ≤ r.sent)) = some true) ∧
    ((feed (choosing [124] feedState.lines.records) 2).state = .live ∧ (feed (choosing [] []) 2).audience = .pub ∧
      (findLine (choosing [124] feedState.lines.records).lines.records 124).map (fun l => visible .pub l.cls) = some true ∧
      (choosing [] []).pins.rdy.get 2 = true) ∧
    (firstDue (choosing [] (feedState.lines.records.drop 3)) = some (124, .closed, true) ∧ firstDue (choosing [] [gone]) = some (126, .withdrawn, true) ∧
      firstDue (choosing [] feedState.lines.records) = some (122, .settled, false) ∧ firstDue (choosing [] (feedState.lines.records.take 1)) = none) ∧
    (feedState.lines.records.Pairwise (fun a b => a.serial < b.serial) ∧
      (below feedState.lines.records 122).map (fun p => visible .pub p.cls) = some true ∧
      (below feedState.lines.records 123).map (fun p => (visible .pub p.cls, decide (p.serial ≤ 122))) = some (false, true)) := by decide +kernel

/-- A LIVE feed at a boundary whose idle timer is due, above lines that need no frame on it: one withdrawn before it was sent, one it may not
show and has announced the serial of, and one sent as it stands. -/
def idling (rdy : Bool) (rs : List Line) : State :=
  let s := setRdy 2 rdy (withLines rs 3 1 4 none (inState .live))
  setFeedCtx 2 { Feed.cold with state := .live, audience := .counsel, idleTimer := some 0, announced := 2 } s

/-- The lines of `idling`. -/
def quietLines : List Line :=
  [lineRec 1 1 1 .opn .withdrawn 2 [], lineRec 2 1 2 .chambers .closed 5 [],
   { lineRec 3 1 3 .sidebar .closed 4 [] with sent := Quad.const 4 }]

/-- Over an empty and a filled line store: the idle timer is due, and no line from the low water up needs a frame. -/
theorem witness_FeedTimersExpire_live :
    ∀ rdy : Bool, ∀ rs ∈ [[], quietLines],
      let s := idling rdy rs
      let c := feed s 2
      (c.idleTimer = some 0 ∧ 0 ≤ s.now ∧ c.state = .live ∧ c.flight = none ∧ c.edits = [] ∧ s.pins.rdy.get 2 = rdy) ∧
      ∀ l ∈ s.lines.records, c.lowWater ≤ l.serial →
        (if l.state = .withdrawn then l.sent.get 2 = 0 ∨ l.withdrawSent.get 2 = true
          else if visible c.audience l.cls = true then l.revision = l.sent.get 2 else l.serial ≤ c.announced) := by decide +kernel

/-- The line the feed shows keeps the low water; a HELD feed waits for FnRDY. -/
theorem test_idle_frame_of_a_live_feed :
    afterwards (.idleTimerExpiry 2) (idling true quietLines) (fun t => ((feed t 2).lowWater, (feed t 2).flight)) =
      some (3, some (.idle false .notEnabled 11 3)) := by decide +kernel

theorem witness_FeedTimersExpire :
    (feed (feedIn 3 .held (inState .live)) 3).idleTimer = some 0 ∧ 0 ≤ (inState .live).now ∧
    (feed (feedIn 3 .held (inState .live)) 3).flight = none ∧ (setRdy 3 true (feedIn 3 .held (inState .live))).pins.rdy.get 3 = true ∧
    (feedIn 3 .held (inState .live)).pins.rdy.get 3 = false ∧
    (feed (feedIn 0 .live (inState .live)) 0).stallTimer = some 0 ∧ (feed (feedIn 0 .test (inState .live)) 0).test.isSome = true ∧
    ((feed (feedIn 0 .live (inState .live)) 0).health ≠ .receiverAbsent ∧
      (feed (setFeedCtx 0 { feed (feedIn 0 .live (inState .live)) 0 with health := .receiverAbsent } (inState .live)) 0).health =
        .receiverAbsent ∧ (feed (feedIn 0 .test (inState .live)) 0).health = .notEnabled ∧
      ({ feed (feedIn 0 .test (inState .live)) 0 with health := .testing }).health ≠ .notEnabled) ∧
    (feed feedState 2).stallTimer = some 3000 ∧ feedState.now < 3000 ∧ (feed (flying 0 .live (inState .live)) 0).flight ≠ none := by
  decide +kernel

theorem witness_FeedRequestsChangeTheFeed :
    Takes .reporter (inState .live) ∧ (feed (inState .live) 3).state = .off ∧ (feed (inState .live) 3).flight = none ∧
    Audience.ofCode 2 = some .pub ∧ Rate.ofCode 3 = some .b115200 ∧ Takes .reporter (feedIn 0 .held (inState .live)) ∧
    (feed (feedIn 0 .held (inState .live)) 0).state.enabled = true ∧ Takes .reporter (flying 3 .live (inState .live)) ∧
    (feed (flying 3 .live (inState .live)) 3).flight = some (.test []) :=
  ⟨takes_in _ _ (by decide), by decide +kernel, by decide +kernel, rfl, rfl, ⟨rfl, rfl, by decide⟩, by decide +kernel, ⟨rfl, rfl, by decide⟩,
    by decide +kernel⟩

theorem witness_HoldAndReleaseMoveTheFeed :
    let held := setFeedCtx 3 { Feed.cold with benchHold := true, state := .held } (inState .live)
    (Takes .bench (inState .live) ∧ (feed (inState .live) 3).benchHold = false ∧ Takes .bench held ∧ (16#8 : Byte).toNat = 16) ∧
    ((15#8 : Byte) ≠ 0#8 ∧ (15#8 : Byte).toNat < 16 ∧ (15#8 : Byte).getLsbD 3 = true ∧ (feed held 3).benchHold = true ∧
      (feed held 0).benchHold = false ∧ (∀ g : Fin 4, (8#8 : Byte).getLsbD g.val = true → (feed held g).benchHold = true) ∧
      ∀ g : Fin 4, (7#8 : Byte).getLsbD g.val = true → (feed held g).benchHold = false) :=
  ⟨⟨takes_in _ _ (by decide), by decide +kernel, ⟨rfl, rfl, by decide⟩, by decide⟩, by decide +kernel⟩

theorem test_hold_feeds_on_a_set :
    let s := feedIn 1 .live (feedIn 2 .stalled (inState .live))
    afterwards (.holdFeeds .bench 1#8 (.fields 0x06#8)) s (fun t =>
      allFeeds.map (fun f => ((feed t f).state, (feed t f).benchHold))) =
      some [(.off, false), (.held, true), (.stalled, true), (.off, false)] := by decide +kernel

/-- F0 of the BENCH audience with the text of a CHAMBERS line in flight. -/
def benchFrame : State :=
  setFeedCtx 0 { Feed.cold with
    state := .live, audience := .bench, flight := some (.text false 1 1 1 .chambers 1 []) } { inState .live with pending := [.frameComplete 0] }

theorem witness_NoRestrictedTextLeavesAFeed : ∃ t, NoLeak benchFrame ∧ step benchFrame = .next t := by
  refine ⟨_, ?_, rfl⟩
  have h1 : ∀ f : Fin 4, (feed benchFrame f).state = .off → (feed benchFrame f).flight = none := by decide +kernel
  have h2 : ∀ f : Fin 4, f ≠ 0 → (feed benchFrame f).flight = none := by decide +kernel
  have h3 : (feed benchFrame 0).audience = .bench := by decide +kernel
  intro f
  refine ⟨h1 f, fun fr h c _ => ?_⟩
  by_cases hf : f = 0
  · rw [hf, h3]; trivial
  · rw [h2 f hf] at h; cases h

/-- A mark of the reporter on line 9. -/
def oneMark (n : Nat) : Mark :=
  { id := n, owner := .reporter, kind := .issue, serial := 9, page := 1, line := 9, time := 0, label := none, detached := false
    revised := true }

theorem witness_MarkRequestsChangeTheTable :
    Takes .bench (oneLine .settled .live) ∧ Takes .reporter (oneLine .settled .recess) ∧ (MarkKind.ofCode 2 = some .review ∧
    (List.replicate 12 0x41#8).length ≤ 12 ∧
    (findLine (oneLine .settled .live).lines.records 9).map (·.state) = some .settled ∧
    (sameMark (List.replicate 63 (oneMark 1)) .bench 9 .review = none ∧ (List.replicate 63 (oneMark 1)).length < 64) ∧
    (sameMark [oneMark 1] .reporter 9 .issue).isSome = true ∧ 64 ≤ (List.replicate 64 (oneMark 1)).length ∧
    ([oneMark 255].find? (fun x => x.id = 255)).map (·.owner) = some .reporter ∧ ([oneMark 255].find? (fun x => x.id = 0)) = none) ∧
    Takes .bench (nearFull (oneLine .settled .live)) ∧ joinable (nearFull (oneLine .settled .live)) = true :=
  ⟨⟨rfl, rfl, by decide⟩, ⟨rfl, rfl, by decide⟩, by decide +kernel, ⟨rfl, rfl, by decide⟩, by decide +kernel⟩

/-- Line 9 SETTLED with one ATTACHED and one DETACHED mark of the reporter. -/
def markedLine (ss : SessState) : State :=
  { oneLine .settled ss with marks := { lastId := 2, records := [oneMark 1, { oneMark 2 with serial := 10, detached := true }] } }

/-- The UNMARK entry: id, owner and kind in field A; DETACHED and REVISED in bits 7 and 6 of field B's last byte. -/
theorem test_remove_mark_asks_for_its_entry :
    afterwards (.removeMark .reporter 1#8 (.fields 2)) (filling (markedLine .live) []) entriesOf =
      some [ent .unmark 0#8 10 5000 0x020000 0x0001C9] := by decide +kernel

theorem witness_MarkTableStaysSound :
    (∃ t, MarksSound { markState with pending := [.setMark .bench 1#8 (.fields { serial := 214, kind := 1, label := none })] } ∧
      step { markState with pending := [.setMark .bench 1#8 (.fields { serial := 214, kind := 1, label := none })] } = .next t) ∧
    ∃ t, MarksAttached { markedLine .live with pending := [.editLine .reporter 1#8 (.fields { serial := 9, text := [] })] } ∧
      step { markedLine .live with pending := [.editLine .reporter 1#8 (.fields { serial := 9, text := [] })] } = .next t :=
  ⟨⟨_, by unfold MarksSound; decide +kernel, rfl⟩, _, by unfold MarksAttached; decide +kernel, rfl⟩

theorem witness_OpenSessionStartsAfresh :
    Takes .reporter (inState .standby) ∧ (inState .standby).ksu.zeroing = none ∧ (inState .standby).session.number < 65535 ∧
    (inState .standby).dict.mainState = .empty ∧ (inState .standby).journal.cond.isFaulted = false ∧ Takes .reporter zeroingState ∧
    zeroingState.ksu.zeroing ≠ none ∧ 65535 ≤ ({ (inState .standby).session with number := 65535 }).number ∧
    ({ Dict.cold with mainState := .building }).mainState = .building ∧ JCond.isFaulted (.faulted .sequenceExhausted) = true ∧
    (Takes .reporter (nearFull (inState .standby)) ∧ joinable (nearFull (inState .standby)) = true) ∧
    (findFilling (inState .standby).journal.buffers = none ∧ lowestFree (inState .standby).journal.buffers = some 0 ∧
      (inState .standby).journal.blockSpent = false ∧ ({ (inState .standby).journal with nextEntry := 4294967293 }).nextEntry + 1 < 4294967295) ∧
    Takes .reporter { zeroingState with session := { zeroingState.session with st := .recess } } ∧
    (Takes .reporter (flying 3 .stopping (inState .standby)) ∧ (feed (flying 3 .stopping (inState .standby)) 3).flight ≠ none ∧
      (feed (flying 3 .stopping (inState .standby)) 3).state = .stopping ∧ (feed (feedIn 0 .live (inState .standby)) 0).state = .live) :=
  ⟨takes_in _ _ (by decide), rfl, by decide +kernel, rfl, rfl, ⟨rfl, rfl, by decide⟩, by decide +kernel, by decide +kernel, rfl, rfl,
    ⟨⟨rfl, rfl, by decide⟩, by decide +kernel⟩, by decide +kernel, ⟨rfl, rfl, by decide⟩, ⟨rfl, rfl, by decide⟩, by decide +kernel⟩

theorem witness_SessionRequestsMoveTheState :
    Takes .reporter (inState .live) ∧ Takes .reporter (inState .recess) ∧ (inState .recess).ksu.zeroing = none ∧
    Takes .reporter (grouped [] { zeroingState with session := { zeroingState.session with st := .recess } }) ∧
    Takes .reporter (nearFull (inState .live)) ∧ joinable (nearFull (inState .live)) = true ∧
    Takes .reporter (nearFull (inState .recess)) ∧ joinable (nearFull (inState .recess)) = true ∧
    (Takes .reporter (sampled pressing (some chordOf0) .live) ∧ (sampled pressing (some chordOf0) .live).chords.chord ≠ none ∧
      (inState .live).chords.chord = none) ∧
    (afterwards (.closeSession .reporter 1#8 (.fields ())) (filling (inState .live) []) (fun t =>
      ((t.journal.buffers.get 0).code, t.journal.cond, t.session.st)) = some (2, .normal, .closing) ∧
     afterwards (.closeSession .reporter 1#8 (.fields ()))
       { inState .live with journal := { (inState .live).journal with cond := .faulted .writeFailures } } (fun t =>
      ((t.journal.buffers.get 0).code, t.journal.cond.isFaulted, t.session.st)) = some (0, true, .standby)) ∧
    (Takes .reporter (inState .standby) ∧ Takes .reporter (inState .closing)) :=
  ⟨takes_in _ _ (by decide), takes_in _ _ (by decide), rfl, ⟨rfl, rfl, by decide⟩, ⟨rfl, rfl, by decide⟩, by decide +kernel,
    ⟨rfl, rfl, by decide⟩, by decide +kernel, ⟨⟨rfl, rfl, by decide⟩, by decide +kernel⟩, by decide +kernel, takes_in _ _ (by decide),
    takes_in _ _ (by decide)⟩

/-- The CLOSE entry closes the block; the RESUME entry joins it. -/
theorem test_close_and_resume_entries :
    let s := fun ss => filling { inState ss with
      chords := { chord := none, strokes := 7 }, session := { (inState ss).session with recesses := 3 } } []
    afterwards (.closeSession .reporter 1#8 (.fields ())) (s .live) (fun t => match t.journal.buffers.q0 with
        | .queued b _ => (b.reason, b.entries)
        | _ => (none, [])) = some (some .close, [ent .close 0#8 7 5000 11 3]) ∧
    afterwards (.resume .reporter 1#8 (.fields ())) (s .recess) entriesOf = some [ent .resume 0#8 7 5000 11 3] := by decide +kernel

theorem witness_ReadsChangeNothing :
    Takes .bench (oneLine .settled .standby) ∧ Takes .reporter (inState .live) ∧
    ((underNumber (clampTo 1 65535 0) (clampTo 1 30 9) (oneLine .settled .standby).lines.records).isSome = true ∧
    underNumber (clampTo 1 65535 65535) (clampTo 1 30 31) (oneLine .settled .standby).lines.records = none ∧
    badSet 0x800000#24 = true ∧ keyInvalid ([0x7FFFFF#24].map toKeySet) = false ∧ keyInvalid ([].map toKeySet) = true) ∧
    (∀ d : Dict, d = { Dict.cold with
        mainState := .ready, main := goodMorning
        job := [entry [creekKey] ['c'], { entry [goodKey] [] with fmt := { Fmt.none with suppress := true } }] } →
      d.job.find? (fun x => x.key = [creekKey]) = some (entry [creekKey] ['c']) ∧
      (d.job.find? (fun x => x.key = [goodKey])).map (·.fmt.suppress) = some true ∧
      (d.job.find? (fun x => x.key = [morningKey]) = none ∧ (d.main.find? (fun x => x.key = [morningKey])).isSome = true) ∧
      d.main.find? (fun x => x.key = [creekKey, creekKey]) = none ∧ d.job.find? (fun x => x.key = [creekKey, creekKey]) = none) := by
  refine ⟨⟨rfl, rfl, by decide⟩, takes_in _ _ (by decide), by decide +kernel, ?_⟩
  rintro d rfl
  decide +kernel

theorem witness_ReadAttentionEmptiesOwnLatch : Takes .bench (inState .closing) := takes_in _ _ (by decide)

theorem witness_ParametersAreApplied : Takes .reporter (inState .standby) ∧ Takes .reporter (inState .live) :=
  ⟨takes_in _ _ (by decide), takes_in _ _ (by decide)⟩

/-- A reporter link READY. -/
def readyState : State :=
  { inState .live with
    reporter := { State.reset.reporter with exch := .ready { code := 0x34#8, tag := 1#8, status := .ok, payload := [] } }
    session := { (inState .live).session with resetPartDue := some 100 } }

theorem witness_FetchSendsTheResponse :
    readyState.pins.rstnHeld = false ∧ (readyState.link .reporter).exch = .ready { code := 0x34#8, tag := 1#8, status := .ok, payload := [] } ∧
    Response.size { code := 0x34#8, tag := 1#8, status := .ok, payload := [] } ≤ 6 ∧
    5 < Response.size { code := 0x34#8, tag := 1#8, status := .ok, payload := [] } ∧ readyState.session.resetPartDue ≠ none ∧
    (readyState.link .bench).exch = .idle ∧ ({ readyState with pins := { readyState.pins with rstnHeld := true } } : State).pins.rstnHeld = true := by
  decide +kernel

theorem witness_FramesThatReachNoBlock :
    readyState.pins.rstnHeld = false ∧ malformed [0x43#8, 0x01#8, 0x04#8, 0x4D#8] = true ∧ malformed [0x43#8] = true ∧
    malformed [0x43#8, 0x01#8, 0x00#8, 0x00#8] = false ∧ (readyState.link .reporter).exch ≠ .idle ∧ (readyState.link .bench).exch = .idle ∧
    unknownCode 0xFF#8 = true ∧ readyState.session.st ≠ .start ∧
    ({ readyState with pins := { readyState.pins with rstnHeld := true } } : State).pins.rstnHeld = true := by decide +kernel

theorem witness_LinkChecksComeInOrder :
    State.reset.pins.rstnHeld = false ∧ (State.reset.link .reporter).exch = .idle ∧ State.reset.session.st = .start ∧
    Req.readAttention ≠ .getStatus ∧
    Req.carriedBy .setClass .reporter = false ∧ Req.carriedBy .zeroKeys .bench = false ∧ Req.carriedBy .zeroKeys .reporter = true ∧
    unknownCode 0x08#8 = true ∧ (inState .live).session.st ≠ .start ∧ ([0x00#8] : List Byte) ≠ [] := by decide +kernel

theorem witness_PresenceLossIsTold :
    (linkTimers 0 stagedState).reporter.timer = some 0 ∧ (linkTimers 0 stagedState).bench.timer = some 0 ∧ 0 ≤ stagedState.now ∧
    (linkTimers 0 stagedState).dict.group.isSome = true ∧ (linkTimers 0 (inState .live)).dict.group = none ∧
    (linkTimers 1 stagedState).now < 1 := by decide +kernel

theorem witness_LatchedFlagsAreNeverLost :
    (∃ t, mayClearFlags .deglitchExpiry = false ∧ exec .deglitchExpiry sidebarState = .next t) ∧
      sidebarState.session.resetPartDue = none ∧ ∃ t, exec (.fetch .bench 1) sidebarState = .next t :=
  ⟨⟨_, rfl, rfl⟩, by decide +kernel, ⟨_, rfl⟩⟩

theorem witness_EncodedRequestsDecode :
    (Instr.setMark .bench 0x03#8 (.fields { serial := 4294967295, kind := 255, label := some [0x41#8] })).wf = true ∧
    encodeRequest (.setMark .bench 0x03#8 (.fields { serial := 4294967295, kind := 255, label := some [0x41#8] })) =
      some (.bench, [0x04#8, 0x03#8, 0x00#8, 0x08#8, 0xFF#8, 0xFF#8, 0xFF#8, 0xFF#8, 0xFF#8, 0x01#8, 0x01#8, 0x41#8]) := by
  decide +kernel

end Sys2Proof.Tests
end

/-! The chord is open in LIVE alone (O17): what each command leaves of the open chord and of the state LIVE. -/

namespace Sys2Proof.Machine

/-- The open chord is as it was, and LIVE has not been left. -/
def ChordKept (s t : State) : Prop := t.chords.chord = s.chords.chord ∧ (s.session.st = .live → t.session.st = .live)

theorem ChordKept.refl (s : State) : ChordKept s s := ⟨rfl, id⟩

theorem ChordKept.of_eq {s t : State} (hc : t.chords = s.chords) (hs : t.session = s.session) : ChordKept s t :=
  ⟨by rw [hc], by rw [hs]; exact id⟩

/-- Ending CLOSING does not leave LIVE. -/
theorem ChordKept.of_session {s t : State} (hc : t.chords = s.chords) (hs : SessionKept s t) : ChordKept s t :=
  ⟨by rw [hc], fun h => by rw [hs.eq (by simp [h]), h]⟩

theorem ChordKept.inLive {s t : State} (h : ChordKept s t) (hs : ChordInLive s) : ChordInLive t :=
  fun hc => h.2 (hs (h.1 ▸ hc))

theorem chordInLive_of_none {t : State} (h : t.chords.chord = none) : ChordInLive t := fun hc => absurd h hc

theorem chordInLive_of_live {t : State} (h : t.session.st = .live) : ChordInLive t := fun _ => h

/-- Outside CLOSING an append leaves the session. -/
theorem append_session_eq (e : Entry) (s : State) (h : s.session.st ≠ .closing) : (append e s).session = s.session :=
  (append_session e s).eq h

/-! ### The chord's own operations -/

/-- An abandoned chord is open no more. -/
@[simp] theorem abandonChord_chords (s : State) : (abandonChord s).chords = { s.chords with chord := none } := by
  unfold abandonChord
  split
  · next h => rw [← h]
  · simp [clearChord, ignoreActive]

/-- A chord that closes is open no more. -/
theorem closeChord_no_chord (c : Chord) (s : State) : (closeChord c s).chords.chord = none := by
  unfold closeChord
  dsimp only
  repeat' split
  all_goals simp [clearChord]

/-- A chord is opened or joined in LIVE alone. -/
theorem keyWentDown_inLive (i : Nat) (s : State) (h : ChordInLive s) : ChordInLive (keyWentDown i s) := by
  unfold keyWentDown
  split
  · exact ChordKept.inLive (.of_eq (by simp) (by simp)) h
  · next hl =>
    have hl : s.session.st = .live := not_not.mp hl
    repeat' split
    · exact h
    · exact chordInLive_of_live (by simpa using hl)
    · exact chordInLive_of_live (by simpa using hl)

/-- A key that comes UP leaves the chord as it is, or closes it as the last held key of its press set (R17). -/
theorem keyWentUp_cases (i : Nat) (s : State) :
    keyWentUp i s = s ∨ ∃ c, s.chords.chord = some c ∧ keyWentUp i s = closeChord c s := by
  unfold keyWentUp
  split
  · exact .inl rfl
  · next c h =>
    split
    · exact .inr ⟨c, h, rfl⟩
    · exact .inl rfl

theorem keyWentUp_inLive (i : Nat) (s : State) (h : ChordInLive s) : ChordInLive (keyWentUp i s) := by
  rcases keyWentUp_cases i s with e | ⟨c, _, e⟩ <;> rw [e]
  · exact h
  · exact chordInLive_of_none (closeChord_no_chord _ _)

theorem takeSample_inLive (n : Nat) (s : State) (h : ChordInLive s) : ChordInLive (takeSample n s) := by
  have h1 : ChordInLive (stepSample n s).1 := ChordKept.inLive (.of_eq (by simp) (by simp)) h
  refine ChordKept.inLive (s := reportMove s.ksu.scanPos (stepSample n s).2 (stepSample n s).1)
    (.of_eq (by simp [takeSample]) (by simp [takeSample])) ?_
  cases (stepSample n s).2 with
  | stayed => exact h1
  | wentDown => exact keyWentDown_inLive _ _ h1
  | wentUp => exact keyWentUp_inLive _ _ h1

theorem holdExpiry_inLive (s : State) (h : ChordInLive s) : ChordInLive (holdExpiry s) := by
  unfold holdExpiry
  repeat' split
  · exact h
  · exact chordInLive_of_none (closeChord_no_chord _ _)
  · exact h

theorem zeroingDone_chordKept (s : State) : ChordKept s (zeroingDone s) := by
  unfold zeroingDone
  repeat' split
  all_goals exact .of_eq (by simp) (by simp)

/-! ### Resets -/

theorem warmReset_inLive (c : ResetCause) (s : State) : ChordInLive (warmReset c s) := chordInLive_of_none rfl

theorem rstnAsserted_inLive (s : State) (h : ChordInLive s) : ChordInLive (rstnAsserted s) := by
  unfold rstnAsserted
  split
  · exact h
  · exact chordInLive_of_none rfl

theorem rstnReleased_chordKept (s : State) : ChordKept s (rstnReleased s) := by
  unfold rstnReleased
  split <;> exact .of_eq rfl rfl

theorem resetPartExpired_inLive (s : State) (h : ChordInLive s) : ChordInLive (resetPartExpired s) := by
  unfold resetPartExpired
  split
  · exact warmReset_inLive _ _
  · exact h

theorem resetIfArmed_inLive (l : Link) (s : State) (h : ChordInLive s) : ChordInLive (resetIfArmed l s) := by
  unfold resetIfArmed
  split
  · exact warmReset_inLive _ _
  · exact h

theorem fetched_inLive (l : Link) (n : Nat) (s : State) (h : ChordInLive s) : ChordInLive (fetched l n s) := by
  have hsent : ∀ bs, ChordInLive (sent l bs s) := fun bs => ChordKept.inLive (.of_eq (by simp) (by simp)) h
  unfold fetched
  dsimp only
  repeat' split
  · exact h
  · exact hsent _
  · exact resetIfArmed_inLive _ _ (ChordKept.inLive (.of_eq (by simp) (by simp)) h)
  · exact hsent _
  · exact hsent _

/-! ### The journal -/

theorem startWrite_chordKept (s : State) : ChordKept s (startWrite s) := by
  unfold startWrite
  repeat' split
  all_goals exact .of_eq rfl rfl

theorem startReporterTransfer_chordKept (s : State) : ChordKept s (startReporterTransfer s) := by
  unfold startReporterTransfer
  repeat' split
  all_goals exact .of_eq rfl rfl

theorem resumeIfSuspended_session (i : Fin 4) (s : State) : SessionKept s (resumeIfSuspended i s) := by
  unfold resumeIfSuspended
  split
  · exact endSuspension_session _ _
  · exact .inl rfl

theorem failureCheck_session (s : State) : SessionKept s (failureCheck s) := by
  unfold failureCheck
  split
  · exact enterFault_session _ _
  · exact .inl rfl

theorem endWrite_chordKept (ok : Bool) (s : State) : ChordKept s (endWrite ok s) := by
  unfold endWrite
  repeat' split
  · exact .of_session (by simp [writeStored])
      (.after (closingReport_session _) (.after (resumeIfSuspended_session _ _) (.of_eq (by simp [writeStored]))))
  · exact .of_session (by simp [writeFailed]) (.after (failureCheck_session _) (.of_eq (by simp [writeFailed])))
  all_goals exact .refl s

theorem endRead_chordKept (r : SlotRead) (s : State) : ChordKept s (endRead r s) := by
  unfold endRead
  repeat' split
  all_goals exact .of_eq (by simp) (by simp)

theorem endClear_chordKept (ok : Bool) (s : State) : ChordKept s (endClear ok s) := by
  unfold endClear
  repeat' split
  · exact .of_eq (by simp [clearDone]) (by simp [clearDone])
  · exact .of_session (by simp [clearFailed]) (.after (failureCheck_session _) (.of_eq (by simp [clearFailed])))
  · exact .refl s

theorem intervalExpiry_chordKept (s : State) : ChordKept s (intervalExpiry s) := by
  unfold intervalExpiry
  split <;> exact .of_eq (by simp) (by simp)

theorem recoverSlot_chordKept (r : RecoveryRead) (s : State) : ChordKept s (recoverSlot r s) := by
  unfold recoverSlot
  repeat' split
  all_goals exact .of_eq rfl rfl

theorem finishRecovery_chordKept (s : State) : ChordKept s (finishRecovery s) := by
  unfold finishRecovery
  split
  · next h =>
    have hst : s.session.st = .start := by
      have := h.1
      simp only [recovering, Bool.and_eq_true, decide_eq_true_eq] at this
      exact this.1
    exact ⟨by simp, fun hl => by simp [hst] at hl⟩
  · exact .refl s

/-! ### The Translator, Class Control, the feeds and the links -/

theorem buildDone_chordKept (s : State) : ChordKept s (buildDone s) := by
  unfold buildDone
  split <;> exact .of_eq (by simp) (by simp)

theorem takeNext_chordKept (s : State) : ChordKept s (takeNext s) := by
  unfold takeNext
  split <;> exact .of_eq (by simp) (by simp)

theorem resolutionExpired_chordKept (s : State) : ChordKept s (resolutionExpired s) := by
  unfold resolutionExpired
  split <;> exact .of_eq (by simp) (by simp)

theorem tiersChanged_chordKept (s : State) : ChordKept s (tiersChanged s) := by
  unfold tiersChanged
  split <;> exact .of_eq (by simp) (by simp)

theorem post_session (l : Link) (n : Notice) (s : State) : SessionKept s (post l n s) := .of_eq (by simp)

theorem postBoth_session (n : Notice) (s : State) : SessionKept s (postBoth n s) := .of_eq (by simp)

theorem chooseAll_session (s : State) : SessionKept s (chooseAll s) := .of_eq (by simp)

theorem reformClass_session (n : Nat) (s : State) : SessionKept s (reformClass n s) := by
  unfold reformClass
  dsimp only
  repeat' split
  · exact .inl rfl
  · exact .after (postBoth_session _ _) (.after (append_session _ _) (.of_eq (by simp)))
  · exact .of_eq (by simp)

theorem takeSbar_session (s : State) : SessionKept s (takeSbar s) := by
  unfold takeSbar
  dsimp only
  split
  · exact .after (reformClass_session _ _) (.of_eq (by simp))
  · exact .after (reformClass_session _ _) (.inl rfl)

theorem sbarChanged_chordKept (high : Bool) (s : State) : ChordKept s (sbarChanged high s) := by
  unfold sbarChanged followSbar
  dsimp only
  repeat' split
  · exact .refl s
  · exact .of_eq rfl rfl
  · exact .of_eq rfl rfl
  · exact .of_session (by simp) (.after (takeSbar_session _) (.inl rfl))
  · exact .of_eq rfl rfl

theorem deglitchExpired_chordKept (s : State) : ChordKept s (deglitchExpired s) := by
  unfold deglitchExpired
  split
  · exact .of_session (by simp) (takeSbar_session s)
  · exact .refl s

theorem rdyChanged_chordKept (f : Fin 4) (high : Bool) (s : State) : ChordKept s (rdyChanged f high s) := by
  unfold rdyChanged
  repeat' split
  all_goals exact .of_eq (by simp) (by simp)

theorem gateChanged_chordKept (high : Bool) (s : State) : ChordKept s (gateChanged high s) := by
  unfold gateChanged
  dsimp only
  repeat' split
  all_goals exact .of_eq (by simp) (by simp)

theorem frameDone_chordKept (f : Fin 4) (s : State) : ChordKept s (frameDone f s) := by
  unfold frameDone
  dsimp only
  repeat' split
  all_goals exact .of_eq (by simp) (by simp)

theorem idleExpired_chordKept (f : Fin 4) (s : State) : ChordKept s (idleExpired f s) := by
  unfold idleExpired
  dsimp only
  split <;> exact .of_eq (by simp) (by simp)

theorem stallExpired_chordKept (f : Fin 4) (s : State) : ChordKept s (stallExpired f s) := by
  unfold stallExpired
  dsimp only
  repeat' split
  all_goals exact .of_eq (by simp) (by simp)

theorem presenceExpired_chordKept (l : Link) (s : State) : ChordKept s (presenceExpired l s) := by
  unfold presenceExpired
  split <;> exact .of_eq (by simp) (by simp)

theorem frameMalformed_chordKept (l : Link) (bs : List Byte) (s : State) : ChordKept s (frameMalformed l bs s) := by
  unfold frameMalformed
  repeat' split
  all_goals exact .of_eq (by simp) (by simp)

theorem frameThrownAway_chordKept (l : Link) (bs : List Byte) (s : State) : ChordKept s (frameThrownAway l bs s) := by
  unfold frameThrownAway
  repeat' split
  all_goals exact .of_eq (by simp) (by simp)

theorem frameUnknown_chordKept (l : Link) (code tag : Byte) (s : State) : ChordKept s (frameUnknown l code tag s) := by
  unfold frameUnknown
  dsimp only
  repeat' split
  all_goals exact .of_eq (by simp) (by simp)

/-! ### The requests -/

/-- A block's answer leaves the open chord and LIVE. -/
def BlockQuiet {α : Type} (block : α → State → Reply) : Prop := ∀ a s, ChordKept s (block a s).state

theorem serve_inLive {α : Type} (l : Link) (tag : Byte) (r : Req) (p : Payload α) (block : α → State → Reply)
    (hb : ∀ a s, ChordInLive s → ChordInLive (block a s).state) (s : State) (h : ChordInLive s) :
    ChordInLive (serve l tag r p block s) :=
  serve_induct ChordInLive (fun _ _ _ hx => ChordKept.inLive (.of_eq (by simp) (by simp)) hx) l tag r p block hb s h

theorem serve_quiet {α : Type} (l : Link) (tag : Byte) (r : Req) (p : Payload α) {block : α → State → Reply}
    (hb : BlockQuiet block) (s : State) (h : ChordInLive s) : ChordInLive (serve l tag r p block s) :=
  serve_inLive l tag r p block (fun a x hx => (hb a x).inLive hx) s h

theorem readLines_quiet : BlockQuiet readLines := by
  intro a s
  unfold readLines
  split <;> exact .refl s

theorem setMark_quiet (l : Link) : BlockQuiet (setMark l) := by
  intro a s
  unfold setMark setMarkOn
  dsimp only
  repeat' split
  all_goals first
    | exact .refl s
    | exact .of_session (by simp [Reply.state]) (.after (post_session _ _ _) (.after (append_session _ _) (.inl rfl)))

theorem removeMark_quiet (l : Link) : BlockQuiet (removeMark l) := by
  intro a s
  unfold removeMark
  repeat' split
  all_goals first
    | exact .refl s
    | exact .of_session (by simp [Reply.state]) (.after (post_session _ _ _) (.after (append_session _ _) (.inl rfl)))

theorem listMarks_quiet : BlockQuiet listMarks := by
  intro a s
  unfold listMarks
  split <;> exact .refl s

theorem setConditioning_quiet : BlockQuiet setConditioning := by
  intro a s
  unfold setConditioning
  repeat' split
  all_goals exact .of_eq rfl rfl

theorem setTiming_quiet : BlockQuiet setTiming := by
  intro a s
  unfold setTiming
  repeat' split
  all_goals exact .of_eq rfl rfl

theorem zeroKeys_quiet : BlockQuiet zeroKeys := by
  intro a s
  unfold zeroKeys
  repeat' split
  all_goals exact .of_eq rfl rfl

theorem beginLoad_quiet : BlockQuiet beginLoad := by
  intro a s
  unfold beginLoad
  repeat' split
  all_goals exact .of_eq rfl rfl

theorem loadEntries_quiet : BlockQuiet loadEntries := by
  intro a s
  unfold loadEntries
  repeat' split
  all_goals exact .of_eq rfl rfl

theorem endLoad_quiet : BlockQuiet endLoad := by
  intro a s
  unfold endLoad
  repeat' split
  all_goals exact .of_eq rfl rfl

theorem openStaged_quiet : BlockQuiet openStaged := by
  intro a s
  unfold openStaged
  repeat' split
  all_goals exact .of_eq rfl rfl

theorem stageChange_chordKept (g : List Staged) (c : Staged) (more : List Byte) (s : State) :
    ChordKept s (stageChange g c more s).state := by
  unfold stageChange
  split <;> exact .of_eq rfl rfl

theorem stageDefine_quiet : BlockQuiet stageDefine := by
  intro a s
  unfold stageDefine
  repeat' split
  all_goals first | exact .refl s | exact stageChange_chordKept _ _ _ s

theorem stageRemove_quiet : BlockQuiet stageRemove := by
  intro a s
  unfold stageRemove
  repeat' split
  all_goals first | exact .refl s | exact stageChange_chordKept _ _ _ s

theorem commitGroup_quiet : BlockQuiet commitGroup := by
  intro a s
  unfold commitGroup
  dsimp only
  repeat' split
  · exact .refl s
  · exact .refl s
  · exact .of_session (by simp [Reply.state]) (.after (.inl rfl) (.after (append_session _ _) (.inl rfl)))

theorem abandonGroup_quiet : BlockQuiet abandonGroup := by
  intro a s
  unfold abandonGroup
  split <;> exact .of_eq rfl rfl

theorem clearJob_quiet : BlockQuiet clearJob := by
  intro a s
  unfold clearJob
  repeat' split
  all_goals exact .of_eq rfl rfl

theorem lookUp_quiet : BlockQuiet lookUp := by
  intro a s
  unfold lookUp
  repeat' split
  all_goals exact .refl s

theorem readBlock_quiet : BlockQuiet readBlock := by
  intro a s
  unfold readBlock
  repeat' split
  all_goals exact .of_eq rfl rfl

theorem releaseBlock_quiet : BlockQuiet releaseBlock := by
  intro a s
  unfold releaseBlock
  repeat' split
  all_goals exact .of_eq rfl rfl

theorem closeBlock_quiet : BlockQuiet closeBlock := by
  intro a s
  unfold closeBlock
  repeat' split
  all_goals exact .of_eq (by simp [Reply.state, refuse]) (by simp [Reply.state, refuse])

theorem applyEdit_session (l : Line) (text : List Byte) (s : State) : SessionKept s (applyEdit l text s) := by
  unfold applyEdit
  dsimp only
  split
  · exact .after (chooseAll_session _) (.after (post_session _ _ _) (.after (append_session _ _) (.of_eq (by simp))))
  · exact .of_eq (by simp)

theorem editLine_quiet : BlockQuiet editLine := by
  intro a s
  unfold editLine
  repeat' split
  all_goals first
    | exact .refl s
    | exact .of_session (by simp [Reply.state]) (applyEdit_session _ _ s)

theorem setFeed_quiet : BlockQuiet setFeed := by
  intro a s
  unfold setFeed
  repeat' split
  all_goals exact .of_eq (by simp [Reply.state, refuse]) (by simp [Reply.state, refuse])

theorem enableFeed_quiet : BlockQuiet enableFeed := by
  intro a s
  unfold enableFeed
  repeat' split
  all_goals exact .of_eq (by simp [Reply.state, refuse]) (by simp [Reply.state, refuse])

theorem disableFeed_quiet : BlockQuiet disableFeed := by
  intro a s
  unfold disableFeed
  repeat' split
  all_goals exact .of_eq (by simp [Reply.state, refuse]) (by simp [Reply.state, refuse])

theorem testFeed_quiet : BlockQuiet testFeed := by
  intro a s
  unfold testFeed
  repeat' split
  all_goals exact .of_eq (by simp [Reply.state, refuse]) (by simp [Reply.state, refuse])

theorem setClass_quiet : BlockQuiet setClass := by
  intro a s
  unfold setClass
  dsimp only
  repeat' split
  all_goals first
    | exact .refl s
    | exact .of_session (by simp [Reply.state]) (.after (reformClass_session _ _) (.inl rfl))

theorem holdFold_keeps (on : Bool) (fs : List (Fin 4)) (s : State) :
    (fs.foldl (setHold on) s).chords = s.chords ∧ (fs.foldl (setHold on) s).session = s.session := by
  induction fs generalizing s with
  | nil => exact ⟨rfl, rfl⟩
  | cons f fs ih => simpa using ih (setHold on s f)

theorem holdOrRelease_quiet (on : Bool) : BlockQuiet (holdOrRelease on) := by
  intro a s
  unfold holdOrRelease
  repeat' split
  · exact .refl s
  · exact .refl s
  · exact .of_eq (holdFold_keeps on _ s).1 (holdFold_keeps on _ s).2

/-! ### The session requests -/

theorem opened_live (s : State) : (opened s).session.st = .live := by
  simp [opened, setSession]

theorem openSession_inLive (a : Unit) (s : State) (h : ChordInLive s) : ChordInLive (openSession a s).state := by
  unfold openSession
  split
  · exact h
  · exact chordInLive_of_live (opened_live s)

theorem recessed_chords (s : State) : (recessed s).chords = { s.chords with chord := none } := by
  simp [recessed]

theorem recess_inLive (a : Unit) (s : State) (h : ChordInLive s) : ChordInLive (recess a s).state := by
  unfold recess
  split
  · exact chordInLive_of_none (by simp [Reply.state, recessed_chords])
  · exact h
  · exact h

theorem resumed_live (s : State) : (resumed s).session.st = .live := by
  simp [resumed]

theorem resume_inLive (a : Unit) (s : State) (h : ChordInLive s) : ChordInLive (resume a s).state := by
  unfold resume
  repeat' split
  · exact h
  · exact chordInLive_of_live (resumed_live s)
  · exact h
  · exact h

theorem closed_chords (s : State) : (closed s).chords = { s.chords with chord := none } := by
  simp [closed]

theorem closeSession_inLive (a : Unit) (s : State) (h : ChordInLive s) : ChordInLive (closeSession a s).state := by
  have hc : ChordInLive (closed s) := chordInLive_of_none (by simp [closed_chords])
  unfold closeSession
  repeat' split
  · exact hc
  · exact h
  · exact hc
  · exact h
  · exact h

/-! ### Every command -/

/-- A command gives a next state, and `P` holds of it. -/
def NextMeets (P : State → Prop) : Host.Outcome State Fault Refusal → Prop
  | .next t => P t
  | _ => False

theorem exec_inLive (c : Instr) (s : State) (h : ChordInLive s) : NextMeets ChordInLive (exec c s) := by
  cases c with
  | powerOn => exact chordInLive_of_none rfl
  | rstnAssert => exact rstnAsserted_inLive s h
  | rstnRelease => exact (rstnReleased_chordKept s).inLive h
  | resetPartTimeout => exact resetPartExpired_inLive s h
  | recoverySlotRead r => exact (recoverSlot_chordKept r s).inLive h
  | recoveryComplete => exact (finishRecovery_chordKept s).inLive h
  | keySample raw =>
    show ChordInLive (if s.pins.rstnHeld then s else takeSample raw.toNat s)
    split
    · exact h
    · exact takeSample_inLive _ s h
  | holdTimerExpiry => exact holdExpiry_inLive s h
  | zeroingComplete => exact (zeroingDone_chordKept s).inLive h
  | blockIntervalExpiry => exact (intervalExpiry_chordKept s).inLive h
  | blockWriteStart => exact (startWrite_chordKept s).inLive h
  | reporterTransferStart => exact (startReporterTransfer_chordKept s).inLive h
  | blockWriteComplete ok => exact (endWrite_chordKept ok s).inLive h
  | blockReadComplete r => exact (endRead_chordKept r s).inLive h
  | headerClearComplete ok => exact (endClear_chordKept ok s).inLive h
  | buildComplete => exact (buildDone_chordKept s).inLive h
  | strokeHandover => exact (takeNext_chordKept s).inLive h
  | resolutionTimerExpiry => exact (resolutionExpired_chordKept s).inLive h
  | tierChangeNotice => exact (tiersChanged_chordKept s).inLive h
  | sbarChange high => exact (sbarChanged_chordKept high s).inLive h
  | deglitchExpiry => exact (deglitchExpired_chordKept s).inLive h
  | fnrdyChange f high => exact (rdyChanged_chordKept f high s).inLive h
  | fgate3Change high => exact (gateChanged_chordKept high s).inLive h
  | frameComplete f => exact (frameDone_chordKept f s).inLive h
  | idleTimerExpiry f => exact (idleExpired_chordKept f s).inLive h
  | stallTimerExpiry f => exact (stallExpired_chordKept f s).inLive h
  | presenceTimerExpiry l => exact (presenceExpired_chordKept l s).inLive h
  | fetch l n => exact fetched_inLive l n s h
  | frameError l bytes => exact (frameMalformed_chordKept l bytes s).inLive h
  | frameDiscarded l bytes => exact (frameThrownAway_chordKept l bytes s).inLive h
  | unknownRequest l code tag => exact (frameUnknown_chordKept l code tag s).inLive h
  | getStatus l tag p => exact serve_quiet l tag _ p (block := getStatus) (fun _ x => .refl x) s h
  | readAttention l tag p =>
    exact serve_quiet l tag _ p (fun _ x => .of_eq (by simp [readAttention, Reply.state]) (by simp [readAttention, Reply.state])) s h
  | readLines l tag p => exact serve_quiet l tag _ p readLines_quiet s h
  | setMark l tag p => exact serve_quiet l tag _ p (setMark_quiet l) s h
  | removeMark l tag p => exact serve_quiet l tag _ p (removeMark_quiet l) s h
  | listMarks l tag p => exact serve_quiet l tag _ p listMarks_quiet s h
  | readFeedHealth l tag p => exact serve_quiet l tag _ p (block := readHealth l) (fun _ x => .refl x) s h
  | setTranslationParameters l tag p => exact serve_quiet l tag _ p (fun _ x => .of_eq rfl rfl) s h
  | setKeyConditioning l tag p => exact serve_quiet l tag _ p setConditioning_quiet s h
  | setChordTiming l tag p => exact serve_quiet l tag _ p setTiming_quiet s h
  | zeroKeys l tag p => exact serve_quiet l tag _ p zeroKeys_quiet s h
  | readKeyDepths l tag p => exact serve_quiet l tag _ p (block := readDepths) (fun _ x => .refl x) s h
  | beginMainLoad l tag p => exact serve_quiet l tag _ p beginLoad_quiet s h
  | loadEntries l tag p => exact serve_quiet l tag _ p loadEntries_quiet s h
  | endMainLoad l tag p => exact serve_quiet l tag _ p endLoad_quiet s h
  | openGroup l tag p => exact serve_quiet l tag _ p openStaged_quiet s h
  | stageDefine l tag p => exact serve_quiet l tag _ p stageDefine_quiet s h
  | stageRemove l tag p => exact serve_quiet l tag _ p stageRemove_quiet s h
  | commitGroup l tag p => exact serve_quiet l tag _ p commitGroup_quiet s h
  | abandonGroup l tag p => exact serve_quiet l tag _ p abandonGroup_quiet s h
  | clearJobTier l tag p => exact serve_quiet l tag _ p clearJob_quiet s h
  | lookUp l tag p => exact serve_quiet l tag _ p lookUp_quiet s h
  | openSession l tag p => exact serve_inLive l tag _ p _ openSession_inLive s h
  | recess l tag p => exact serve_inLive l tag _ p _ recess_inLive s h
  | resume l tag p => exact serve_inLive l tag _ p _ resume_inLive s h
  | closeSession l tag p => exact serve_inLive l tag _ p _ closeSession_inLive s h
  | resetPart l tag p => exact serve_quiet l tag _ p (fun _ x => ⟨rfl, id⟩) s h
  | readJournalBlock l tag p => exact serve_quiet l tag _ p readBlock_quiet s h
  | releaseJournalBlock l tag p => exact serve_quiet l tag _ p releaseBlock_quiet s h
  | closeJournalBlock l tag p => exact serve_quiet l tag _ p closeBlock_quiet s h
  | journalSummary l tag p => exact serve_quiet l tag _ p (block := readSummary) (fun _ x => .refl x) s h
  | editLine l tag p => exact serve_quiet l tag _ p editLine_quiet s h
  | setFeed l tag p => exact serve_quiet l tag _ p setFeed_quiet s h
  | enableFeed l tag p => exact serve_quiet l tag _ p enableFeed_quiet s h
  | disableFeed l tag p => exact serve_quiet l tag _ p disableFeed_quiet s h
  | testFeed l tag p => exact serve_quiet l tag _ p testFeed_quiet s h
  | setClass l tag p => exact serve_quiet l tag _ p setClass_quiet s h
  | holdFeeds l tag p => exact serve_quiet l tag _ p (holdOrRelease_quiet true) s h
  | releaseFeeds l tag p => exact serve_quiet l tag _ p (holdOrRelease_quiet false) s h

/-- Settles O17: on an empty queue the tick keeps chord and state, and each command keeps the invariant. -/
theorem chordOpenOnlyInLive : Obligations.ChordOpenOnlyInLive := by
  intro s t hs e
  unfold step at e
  split at e
  · cases e
    exact ChordKept.inLive (s := s) ⟨rfl, id⟩ hs
  · next c rest _ =>
    have h := exec_inLive c { s with pending := rest } hs
    rw [e] at h
    exact h

end Sys2Proof.Machine

/-! The key state machine (O11, O12), the end of a zeroing (O15) and the key settings (O16). -/

namespace Sys2Proof.Machine

/-! ### The key state machine, one equation for each state -/

theorem step_up (cp cr h : Nat) (k : Key) (d : Nat) (hk : k.st = .up) :
    k.step cp cr h d =
      if k.cond.press ≤ d then
        if cp ≤ 1 then ({ k with depth := d, st := .down, count := 0 }, .wentDown)
        else ({ k with depth := d, st := .pressing, count := 1 }, .stayed)
      else ({ k with depth := d }, .stayed) := by
  simp [Key.step, hk, Key.toDown]

theorem step_pressing (cp cr h : Nat) (k : Key) (d : Nat) (hk : k.st = .pressing) :
    k.step cp cr h d =
      if k.cond.press ≤ d then
        if cp ≤ k.count + 1 then ({ k with depth := d, st := .down, count := 0 }, .wentDown)
        else ({ k with depth := d, count := k.count + 1 }, .stayed)
      else ({ k with depth := d, st := .up, count := 0, ignore := false }, .stayed) := by
  simp [Key.step, hk, Key.toDown, Key.toUp]

theorem step_down (cp cr h : Nat) (k : Key) (d : Nat) (hk : k.st = .down) :
    k.step cp cr h d =
      if releaseThreshold k.cond.press h ≤ d then ({ k with depth := d }, .stayed)
      else if cr ≤ 1 then ({ k with depth := d, st := .up, count := 0, ignore := false }, .wentUp)
      else ({ k with depth := d, st := .releasing, count := 1 }, .stayed) := by
  simp [Key.step, hk, Key.toUp]

theorem step_releasing (cp cr h : Nat) (k : Key) (d : Nat) (hk : k.st = .releasing) :
    k.step cp cr h d =
      if releaseThreshold k.cond.press h ≤ d then ({ k with depth := d, st := .down, count := 0 }, .stayed)
      else if cr ≤ k.count + 1 then ({ k with depth := d, st := .up, count := 0, ignore := false }, .wentUp)
      else ({ k with depth := d, count := k.count + 1 }, .stayed) := by
  simp [Key.step, hk, Key.toUp, Key.toDown]

theorem step_stuck (cp cr h : Nat) (k : Key) (d : Nat) (hk : k.st = .stuck) :
    k.step cp cr h d =
      if releaseThreshold k.cond.press h ≤ d then ({ k with depth := d, count := 0 }, .stayed)
      else if cr ≤ k.count + 1 then ({ k with depth := d, st := .up, count := 0, ignore := false }, .stayed)
      else ({ k with depth := d, count := k.count + 1 }, .stayed) := by
  simp [Key.step, hk, Key.toUp]

/-- Settles O11: each clause is one branch of the step from UP or from PRESSING. -/
theorem pressRunReachesDown : Obligations.PressRunReachesDown := by
  intro cp cr h k d hcp
  refine ⟨fun hk hd h1 => ?_, fun hk hd h1 => ?_, fun hk hd hc => ?_, fun hk hd hc => ?_, fun hk hd => ?_⟩
  · rw [step_up _ _ _ _ _ hk, if_pos hd, if_pos (by omega)]
  · rw [step_up _ _ _ _ _ hk, if_pos hd, if_neg (by omega)]
  · rw [step_pressing _ _ _ _ _ hk, if_pos hd, if_neg (by omega)]
  · rw [step_pressing _ _ _ _ _ hk, if_pos hd, if_pos hc]
  · rw [step_pressing _ _ _ _ _ hk, if_neg (by omega)]

/-- Settles O12: each clause is one branch of the step from DOWN or from RELEASING. -/
theorem releaseRunReachesUp : Obligations.ReleaseRunReachesUp := by
  intro cp cr h k d hcr
  refine ⟨fun hk hd => ?_, fun hk hd h1 => ?_, fun hk hd h1 => ?_, fun hk hd hc => ?_, fun hk hd hc => ?_, fun hk hd => ?_⟩
  · rw [step_down _ _ _ _ _ hk, if_pos hd]
  · rw [step_down _ _ _ _ _ hk, if_neg (by omega), if_pos (by omega)]
  · rw [step_down _ _ _ _ _ hk, if_neg (by omega), if_neg (by omega)]
  · rw [step_releasing _ _ _ _ _ hk, if_neg (by omega), if_neg (by omega)]
  · rw [step_releasing _ _ _ _ _ hk, if_neg (by omega), if_pos hc]
  · rw [step_releasing _ _ _ _ _ hk, if_pos hd]

/-! ### The end of a zeroing -/

theorem zeroKey_unstable (o : Int) (a : ZeroAcc) (h : 64 < a.max - a.min) : zeroKey o a = (o, .unstable) := by
  simp [zeroKey, h]

theorem zeroKey_updated (o : Int) (a : ZeroAcc) (h : a.max - a.min ≤ 64) (hm : (a.sum + 32) / 64 ≤ 559) :
    zeroKey o a = ((((a.sum + 32) / 64 : Nat) : Int) - 48, .updated) := by
  unfold zeroKey
  rw [if_neg (Nat.not_lt.2 h)]
  dsimp only
  rw [if_neg (by omega)]

theorem zeroKey_clamped (o : Int) (a : ZeroAcc) (h : a.max - a.min ≤ 64) (hm : 559 < (a.sum + 32) / 64) :
    zeroKey o a = (511, .clamped) := by
  unfold zeroKey
  rw [if_neg (Nat.not_lt.2 h)]
  dsimp only
  rw [if_pos (by omega)]

/-- What the settling makes of one key, and what it reports of it. -/
theorem settleZeroing_key (z : Zeroing) (s : State) (i : Nat) (k : Key) (a : ZeroAcc) (o : Int) (r : ZeroOutcome)
    (hk : s.ksu.keys[i]? = some k) (ha : z.accs[i]? = some a) (hz : zeroKey k.cond.offset a = (o, r)) :
    (settleZeroing z s).ksu.keys[i]? = some { k with cond := { k.cond with offset := o } } ∧
      ∃ ks, (settleZeroing z s).ksu.zeroResult = .complete ks ∧ ks[i]? = some r := by
  refine ⟨?_, _, by simp [settleZeroing]; rfl, ?_⟩ <;> simp [settleZeroing, hk, ha, hz, List.getD]

/-- Settles O15: the three outcomes of a key, by its spread and by its mean. -/
theorem zeroingSettlesTheOffsets : Obligations.ZeroingSettlesTheOffsets := by
  intro s z hz hf
  refine ⟨settleZeroing z s, ?_, ?_, ?_, ?_, ?_⟩
  · show Host.Outcome.next (zeroingDone s) = _
    simp [zeroingDone, hz, hf]
  · simp [settleZeroing, post, State.setLink, State.link]
  · simp [settleZeroing]
  · simp [settleZeroing]
  · intro i k a hk ha
    exact ⟨fun h => settleZeroing_key z s i k a _ _ hk ha (zeroKey_unstable _ a h),
      fun h hm => settleZeroing_key z s i k a _ _ hk ha (zeroKey_updated _ a h hm),
      fun h hm => settleZeroing_key z s i k a _ _ hk ha (zeroKey_clamped _ a h hm)⟩

/-! ### The key settings -/

/-- The checks of the key requests read nothing that a frame's arrival changes. -/
@[simp] theorem keyChecks_touchPresence (l : Link) (s : State) : keyChecks (touchPresence l s) = keyChecks s := by
  simp [keyChecks]

/-- In STANDBY and RECESS without a zeroing the key requests are taken. -/
theorem keyChecks_none (s : State) (h : s.session.st = .standby ∨ s.session.st = .recess) (hz : s.ksu.zeroing = none) :
    keyChecks s = none := by
  simp [keyChecks, h, hz]

/-- The key requests are refused WRONG_STATE in LIVE and CLOSING, and BUSY where a zeroing runs. -/
theorem keyChecks_some (s : State) (st : Status)
    (h : ((s.session.st = .live ∨ s.session.st = .closing) ∧ st = .wrongState) ∨
      ((s.session.st = .standby ∨ s.session.st = .recess) ∧ s.ksu.zeroing ≠ none ∧ st = .busy)) : keyChecks s = some st := by
  rcases h with ⟨h | h, rfl⟩ | ⟨h, hz, rfl⟩
  · simp [keyChecks, h]
  · simp [keyChecks, h]
  · simp [keyChecks, h, hz]

/-- Settles O16: each request by the answer of its checks. -/
theorem keySettingsAreWrittenClamped : Obligations.KeySettingsAreWrittenClamped := by
  intro tag s ht
  have hz : exec (.zeroKeys .reporter tag (.fields ())) s =
      .next (deliver .reporter Req.zeroKeys.code tag (zeroKeys () (touchPresence .reporter s))) :=
    congrArg _ (serve_takes _ _ _ _ _ s ht rfl)
  have hc : ∀ a, exec (.setKeyConditioning .reporter tag (.fields a)) s =
      .next (deliver .reporter Req.setKeyConditioning.code tag (setConditioning a (touchPresence .reporter s))) :=
    fun a => congrArg _ (serve_takes _ _ _ _ _ s ht rfl)
  have hg : ∀ a, exec (.setChordTiming .reporter tag (.fields a)) s =
      .next (deliver .reporter Req.setChordTiming.code tag (setTiming a (touchPresence .reporter s))) :=
    fun a => congrArg _ (serve_takes _ _ _ _ _ s ht rfl)
  refine ⟨fun hst hz0 => ?_, fun st h => ?_, fun a h23 h255 => ?_⟩
  · have hk := keyChecks_none s hst hz0
    refine ⟨fun a ha => ?_, fun a => ?_, ?_⟩
    · rw [hc, setConditioning, if_neg (by simp only [nKeys]; omega)]
      simp [hk, mapKeys, clampCond]
    · rw [hg, setTiming]
      simp [hk]
    · simp only [hz, zeroKeys, keyChecks_touchPresence, hk, deliver_done, touchPresence_keeps]
      rfl
  · have hk := keyChecks_some s st h
    refine ⟨?_, fun a ha => ?_, fun a => ?_⟩
    · simp [hz, zeroKeys, hk]
    · rw [hc, setConditioning, if_neg (by simp only [nKeys]; omega)]
      simp [hk]
    · simp [hg, setTiming, hk]
  · rw [hc, setConditioning, if_pos ⟨h23, h255⟩]
    simp

end Sys2Proof.Machine

/-! The resets (O3, O5, O6) and the invariants after one (O60). -/

namespace Sys2Proof.Machine

/-- The class formed under an OPEN bench class is the one SBAR gives. -/
theorem effectiveOf_opn (sbar : Bool) : effectiveOf .opn sbar = if sbar then .sidebar else .opn := by
  cases sbar <;> rfl

/-- Settles O3. -/
theorem powerOnGivesTheColdState : Obligations.PowerOnGivesTheColdState := by
  intro s
  show Host.Outcome.next (coldReset s) = _
  simp [coldReset, ClassCtl.atReset, effectiveOf_opn, LinkState.atReset, State.reset]

/-- Settles O60: each invariant, evaluated on the state after reset. -/
theorem resetMeetsTheInvariants : Obligations.ResetMeetsTheInvariants := by
  refine ⟨⟨reset_memory_wf, ?_⟩, rfl, ?_, ?_, ?_, ?_⟩
  · simp [sparseRising, State.reset, Journal.atStart]
  · exact chordInLive_of_none rfl
  · exact (noLeak_iff _).2 fun f => by simp [LeakFree, feed, State.reset, Feed.cold, Feed.atReset]
  · simp [MarksSound, State.reset, MarkTable.emptied]
  · simp [MarksAttached, State.reset, MarkTable.emptied]

/-! ### The warm reset -/

/-- The dictionary at a warm reset: a READY main tier is kept whole, any other is emptied (R79, R91). -/
theorem atWarm_main_ready (d : Dict) (h : d.mainState = .ready) :
    d.atWarm.mainState = .ready ∧ d.atWarm.main = d.main ∧ d.atWarm.poolUse = d.poolUse := by
  simp [Dict.atWarm, h]

theorem atWarm_main_emptied (d : Dict) (h : d.mainState ≠ .ready) :
    d.atWarm.mainState = .empty ∧ d.atWarm.main = [] ∧ d.atWarm.poolUse = 0 := by
  simp [Dict.atWarm, h]

/-- The length of a field. -/
@[simp] theorem length_be (w n : Nat) : (be w n).length = w := by
  have hd : (beDigits w n).length = w := by
    induction w with
    | zero => rfl
    | succ w ih => simp [beDigits, ih]
  unfold be
  split
  · exact hd
  · simp

/-- A response has the size told of it. -/
@[simp] theorem length_responseBytes (r : Response) (p d : Bool) : (r.bytes p d).length = r.size := by
  simp [Response.bytes, Response.size]
  omega

/-- A fetch of the whole response sends all of it, then zeros. -/
theorem fetchBytes_whole (k : LinkState) (r : Response) (n : Nat) (h : r.size ≤ n) :
    fetchBytes k r n = r.bytes (k.attn ≠ 0) k.discard ++ List.replicate (n - r.size) 0#8 :=
  List.take_of_length_le (by simp; omega)

/-- The part after a warm reset, with what then stands as sent on the reporter link's data out and whether RSTN is held: the form of all
three commands that bring one (R54, R56, R68). -/
def warmState (cause : ResetCause) (out : List Byte) (held : Bool) (s : State) : State :=
  { warmReset cause s with
    reporter := LinkState.atReset s.reporter.presenceTime out
    pins := { s.pins with rstnHeld := held } }

/-- What the last transfer sent has no part in a warm reset but its own record. -/
theorem warmReset_readWhole (cause : ResetCause) (bs : List Byte) (s : State) :
    warmReset cause (readWhole .reporter bs s) = warmState cause bs s.pins.rstnHeld s := by
  have hcut : (cutTransfer (readWhole .reporter bs s)).memory = (cutTransfer s).memory ∧
      (cutTransfer (readWhole .reporter bs s)).events = (cutTransfer s).events := by
    unfold cutTransfer
    simp only [readWhole_keeps]
    repeat' split
    all_goals exact ⟨rfl, rfl⟩
  simp only [warmState, warmReset, cutTransfer_keeps, readWhole_keeps, hcut]
  rfl

theorem warmReset_eq (cause : ResetCause) (s : State) :
    warmReset cause s = warmState cause s.reporter.fetched s.pins.rstnHeld s := by
  simp [warmState, warmReset]

/-- An RSTN not yet held brings a warm reset, and is held. -/
theorem exec_rstnAssert (s : State) (h : s.pins.rstnHeld = false) :
    exec .rstnAssert s = .next (warmState .rstn s.reporter.fetched true s) := by
  show Host.Outcome.next (rstnAsserted s) = _
  simp [rstnAsserted, h, warmState, warmReset, setHeld]

/-- A Reset Part whose 100 ms have passed brings a warm reset. -/
theorem exec_resetPartTimeout (s : State) (e : Nat) (h : s.session.resetPartDue = some e) (hd : e ≤ s.now) :
    exec .resetPartTimeout s = .next (warmState .resetPart s.reporter.fetched s.pins.rstnHeld s) := by
  show Host.Outcome.next (resetPartExpired s) = _
  simp [resetPartExpired, Timer.due, h, hd, ← warmReset_eq]

/-- The fetch that reads the whole response of a Reset Part brings a warm reset. -/
theorem exec_fetch_armed (s : State) (n : Nat) (r : Response) (hr : s.pins.rstnHeld = false) (ha : s.session.resetPartDue ≠ none)
    (hx : s.reporter.exch = .ready r) (hn : r.size ≤ n) :
    exec (.fetch .reporter n) s = .next (warmState .resetPart
      (r.bytes (s.reporter.attn ≠ 0) s.reporter.discard ++ List.replicate (n - r.size) 0#8) s.pins.rstnHeld s) := by
  have h0 : n ≠ 0 := by
    have : 6 ≤ r.size := Nat.le_add_right 6 _
    omega
  show Host.Outcome.next (fetched .reporter n s) = _
  rw [← fetchBytes_whole _ _ _ hn, ← warmReset_readWhole]
  simp [fetched, h0, hr, hx, hn, resetIfArmed, Option.isSome_iff_ne_none.2 ha]

/-- Each part of the state after a warm reset. -/
@[simp] theorem warmState_parts (cause : ResetCause) (out : List Byte) (held : Bool) (s : State) :
    (warmState cause out held s).ksu = s.ksu.atWarm ∧ (warmState cause out held s).chords = { chord := none, strokes := 0 } ∧
    (warmState cause out held s).session = Session.atStart cause ∧
    (warmState cause out held s).journal = Journal.atStart (onlyBad s.journal.slots) s.journal.interval ∧
    (warmState cause out held s).dict = s.dict.atWarm ∧ (warmState cause out held s).trans = Translator.emptied s.trans.setting ∧
    (warmState cause out held s).lines = LineStore.emptied s.lines.width s.lines.pageLen s.lines.settle ∧
    (warmState cause out held s).cls = ClassCtl.atReset s.pins.sbar s.cls.setting ∧
    (warmState cause out held s).feeds = { ctx := s.feeds.ctx.map Feed.atWarm, gate := !s.pins.fgate3 } ∧
    (warmState cause out held s).marks = MarkTable.emptied ∧
    (warmState cause out held s).reporter = LinkState.atReset s.reporter.presenceTime out ∧
    (warmState cause out held s).bench = LinkState.atReset s.bench.presenceTime s.bench.fetched ∧
    (warmState cause out held s).pins = { s.pins with rstnHeld := held } ∧ (warmState cause out held s).now = s.now ∧
    (warmState cause out held s).pending = s.pending := by
  simp [warmState, warmReset]

@[simp] theorem feed_warmState (cause : ResetCause) (out : List Byte) (held : Bool) (s : State) (f : Fin 4) :
    feed (warmState cause out held s) f = (feed s f).atWarm := by
  simp [feed]

/-- The zeroing result at a warm reset: a running zeroing is abandoned (R14). -/
theorem atWarm_zeroResult (k : Ksu) : k.atWarm.zeroResult = if k.zeroing = none then k.zeroResult else .abandoned := by
  cases h : k.zeroing <;> simp [Ksu.atWarm, h]

/-- A warm reset keeps every conditioning record (R23). -/
theorem atWarm_cond (k : Ksu) : k.atWarm.keys.map (·.cond) = k.keys.map (·.cond) := by
  simp [Ksu.atWarm, Key.atWarm]

/-- Settles O5: the three commands give one form of state, whose parts are those the blocks' tables lay down. -/
theorem warmResetKeepsTheSettings : Obligations.WarmResetKeepsTheSettings := by
  intro s c cause hc
  obtain ⟨out, held, he, hout, hfetch, hheld⟩ : ∃ out held, exec c s = .next (warmState cause out held s) ∧
      ((∀ n, c ≠ .fetch .reporter n) → out = s.reporter.fetched) ∧
      (∀ n r, c = .fetch .reporter n → s.reporter.exch = .ready r →
        out = r.bytes (s.reporter.attn ≠ 0) s.reporter.discard ++ List.replicate (n - r.size) 0#8) ∧
      held = if c = .rstnAssert then true else s.pins.rstnHeld := by
    rcases hc with ⟨rfl, rfl, hr⟩ | ⟨rfl, rfl, e, hd, hn⟩ | ⟨rfl, hr, ha, n, r, rfl, hx, hn⟩
    · exact ⟨_, _, exec_rstnAssert s hr, fun _ => rfl, by simp, by simp⟩
    · exact ⟨_, _, exec_resetPartTimeout s e hd hn, fun _ => rfl, by simp, by simp⟩
    · refine ⟨_, _, exec_fetch_armed s n r hr ha hx hn, fun h => absurd rfl (h n), ?_, by simp⟩
      intro n' r' hn' hr'
      cases hn'
      rw [hx] at hr'
      cases hr'
      rfl
  refine ⟨_, he, ?_⟩
  simp only [warmState_parts, feed_warmState, atWarm_zeroResult]
  refine ⟨rfl, rfl, rfl, rfl, rfl, rfl, rfl, rfl, trivial, trivial, rfl, rfl, rfl, rfl, rfl, rfl, atWarm_main_ready _, atWarm_main_emptied _,
    rfl, rfl, ?_, trivial, fun _ => rfl, fun f => txIdle_of_flight _ f (by simp [Feed.atWarm, Feed.atReset]), rfl, rfl, hout, hfetch, rfl, ?_,
    trivial, trivial⟩
  · simp [ClassCtl.atReset, effectiveOf_opn]
  · rw [hheld]

/-- Settles O6: both warm resets abandon the zeroing and keep the offsets; a cold reset has no result. -/
theorem resetAbandonsZeroing : Obligations.ResetAbandonsZeroing := by
  intro s z hz
  have hw : ∀ cause out held, (warmState cause out held s).ksu.zeroing = none ∧
      (warmState cause out held s).ksu.zeroResult = .abandoned ∧
      (warmState cause out held s).ksu.keys.map (·.cond) = s.ksu.keys.map (·.cond) ∧
      zeroField (warmState cause out held s).ksu.zeroResult = [2#8, 0#8] ∧
      (warmState cause out held s).reporter.attn = 1#20 ∧ (warmState cause out held s).bench.attn = 1#20 := by
    intro cause out held
    simp only [warmState_parts, atWarm_zeroResult, atWarm_cond, hz]
    exact ⟨rfl, rfl, trivial, rfl, rfl, rfl⟩
  exact ⟨fun hr => ⟨_, exec_rstnAssert s hr, hw _ _ _⟩, fun e hd hn => ⟨_, exec_resetPartTimeout s e hd hn, hw _ _ _⟩, _, rfl, rfl, rfl⟩

end Sys2Proof.Machine

/-! The requests that read (O51): their answers, and how a key resolves and is extendable. -/

namespace Sys2Proof.Machine

/-! ### Lookup -/

theorem resolve_job (d : Dict) (key : List KeySet) (e : DictEntry) (h : d.job.find? (fun x => x.key = key) = some e)
    (hs : e.fmt.suppress = false) : resolve d key = .job e := by
  simp [resolve, findKey, h, hs]

theorem resolve_suppressed (d : Dict) (key : List KeySet) (e : DictEntry) (h : d.job.find? (fun x => x.key = key) = some e)
    (hs : e.fmt.suppress = true) : resolve d key = .none := by
  simp [resolve, findKey, h, hs]

theorem resolve_main (d : Dict) (key : List KeySet) (e : DictEntry) (hj : d.job.find? (fun x => x.key = key) = none)
    (hr : d.mainState = .ready) (h : d.main.find? (fun x => x.key = key) = some e) : resolve d key = .main e := by
  simp [resolve, findKey, mainEntry, hj, hr, h]

theorem resolve_none (d : Dict) (key : List KeySet) (hj : d.job.find? (fun x => x.key = key) = none)
    (h : d.mainState ≠ .ready ∨ d.main.find? (fun x => x.key = key) = none) : resolve d key = .none := by
  rcases h with h | h
  · simp [resolve, findKey, mainEntry, hj, h]
  · simp [resolve, findKey, mainEntry, hj, h]

/-- An entry that does not suppress is answered as it is held. -/
theorem entry_job (e : DictEntry) (hs : e.fmt.suppress = false) : (Resolution.job e).entry = some e := by
  obtain ⟨key, text, fmt⟩ := e
  obtain ⟨al, ar, cn, nl, gl, sup⟩ := fmt
  simp only at hs
  subst hs
  rfl

theorem begins_iff (k k' : List KeySet) : begins k k' = true ↔ k.length < k'.length ∧ k'.take k.length = k := by
  simp [begins]

/-- A key is extendable by a longer key that a READY main tier holds, or an entry of the job tier that does not suppress (R89). -/
theorem extendable_iff (d : Dict) (key : List KeySet) :
    extendable d key = true ↔
      ∃ x : DictEntry, ((x ∈ d.main ∧ d.mainState = .ready) ∨ (x ∈ d.job ∧ x.fmt.suppress = false)) ∧
        key.length < x.key.length ∧ x.key.take key.length = key := by
  simp only [extendable, Bool.or_eq_true, Bool.and_eq_true, decide_eq_true_eq, List.any_eq_true, Bool.not_eq_true', begins_iff]
  constructor
  · rintro (⟨hr, x, hx, hb⟩ | ⟨x, hx, hs, hb⟩)
    · exact ⟨x, .inl ⟨hx, hr⟩, hb⟩
    · exact ⟨x, .inr ⟨hx, hs⟩, hb⟩
  · rintro ⟨x, ⟨hx, hr⟩ | ⟨hx, hs⟩, hb⟩
    · exact .inl ⟨hr, x, hx, hb⟩
    · exact .inr ⟨x, hx, hs, hb⟩

/-! ### The payloads read nothing that a frame's arrival changes -/

@[simp] theorem depthsPayload_touchPresence (l : Link) (s : State) : depthsPayload (touchPresence l s) = depthsPayload s := by
  simp [depthsPayload]

@[simp] theorem summaryPayload_touchPresence (l : Link) (s : State) : summaryPayload (touchPresence l s) = summaryPayload s := by
  simp [summaryPayload, condCode, transferBusy]

/-! ### Look Up -/

theorem lookUp_range (k : List (BitVec 24)) (s : State) (h : ∃ x ∈ k, badSet x = true) : lookUp k s = refuse .range s := by
  simp [lookUp, List.any_eq_true.2 h]

theorem lookUp_goodSets (k : List (BitVec 24)) (s : State) (h : ∀ x ∈ k, badSet x = false) :
    lookUp k s = if keyInvalid (k.map toKeySet) then refuse .keyInvalid s
      else .done .ok (lookUpPayload s.dict (k.map toKeySet)) s := by
  have hk : k.any badSet = false := List.any_eq_false.2 fun x hx => by simp [h x hx]
  simp [lookUp, hk]

/-- Settles O51: each read answers from the state as it stands; then the rules of lookup. -/
theorem readsChangeNothing : Obligations.ReadsChangeNothing := by
  intro l tag s ht
  have both : ∀ r : Req, r.carriedBy .reporter = true → r.carriedBy .bench = true → r.carriedBy l = true := by
    intro r h1 h2
    cases l <;> assumption
  have hlist : ∀ a, exec (.listMarks l tag (.fields a)) s =
      .next (deliver l Req.listMarks.code tag (listMarks a (touchPresence l s))) :=
    fun a => congrArg _ (serve_takes _ _ _ _ _ s ht (both _ rfl rfl))
  have hlines : ∀ a, exec (.readLines l tag (.fields a)) s =
      .next (deliver l Req.readLines.code tag (readLines a (touchPresence l s))) :=
    fun a => congrArg _ (serve_takes _ _ _ _ _ s ht (both _ rfl rfl))
  refine ⟨congrArg _ (serve_takes _ _ _ _ _ s ht (both _ rfl rfl)), congrArg _ (serve_takes _ _ _ _ _ s ht (both _ rfl rfl)),
    fun a ha => ?_, fun a ha => ?_, fun n c => ?_, fun p n c x hx => ?_, fun p n c hx => ?_, fun hl => ?_, fun d key e => ?_⟩
  · rw [hlist, listMarks, if_neg (by omega)]
    simp
  · rw [hlist, listMarks, if_pos ha]
    simp
  · simp [hlines, readLines, linesFrom, fromSerial]
  · simp [hlines, readLines, linesFrom, fromSerial, hx]
  · simp [hlines, readLines, linesFrom, hx]
  · subst hl
    have hlook : ∀ k, exec (.lookUp .reporter tag (.fields k)) s =
        .next (deliver .reporter Req.lookUp.code tag (lookUp k (touchPresence .reporter s))) :=
      fun k => congrArg _ (serve_takes _ _ _ _ _ s ht rfl)
    refine ⟨fun k hk => ?_, fun k hk hi => ?_, ?_, ?_, fun k hk hi => ?_⟩
    · rw [hlook, lookUp_range _ _ hk, deliver_refuse]
    · rw [hlook, lookUp_goodSets _ _ hk, if_pos hi, deliver_refuse]
    · rw [← depthsPayload_touchPresence .reporter s]
      exact congrArg _ (serve_takes _ _ _ _ _ s ht rfl)
    · rw [← summaryPayload_touchPresence .reporter s]
      exact congrArg _ (serve_takes _ _ _ _ _ s ht rfl)
    · rw [hlook, lookUp_goodSets _ _ hk, if_neg (by simp [hi])]
      simp
  · refine ⟨fun h hs => ?_, fun h hs => ?_, fun hj hr h => ?_, fun hj h => ?_, extendable_iff d key⟩
    · rw [resolve_job d key e h hs]
      exact ⟨rfl, entry_job e hs⟩
    · rw [resolve_suppressed d key e h hs]
      exact ⟨rfl, rfl⟩
    · rw [resolve_main d key e hj hr h]
      exact ⟨rfl, rfl⟩
    · rw [resolve_none d key hj h]
      exact ⟨rfl, rfl⟩

end Sys2Proof.Machine

/-! The keys and the chord: a key read after each operation, what a sample's step gives, and how a chord closes. -/

namespace Sys2Proof.Machine

/-! ### A key read after a change -/

/-- A key read after one was replaced; an index past the keys replaces none. -/
theorem keyAt_setKey (i j : Nat) (k : Key) (s : State) :
    keyAt (setKey i k s) j = if i = j ∧ i < s.ksu.keys.length then k else keyAt s j := by
  simp only [keyAt, setKey_ksu, List.getD_eq_getElem?_getD, List.getElem?_set]
  by_cases h : i = j
  · subst h
    by_cases hl : i < s.ksu.keys.length <;> simp [hl]
  · simp [h]

/-- A key read after all were taken through a function that leaves the key that an index past the keys reads as. -/
theorem keyAt_mapKeys (g : Nat → Key → Key) (s : State) (j : Nat) (h : g j Key.cold = Key.cold) :
    keyAt (mapKeys g s) j = g j (keyAt s j) := by
  simp only [keyAt, mapKeys_ksu, List.getD_eq_getElem?_getD, List.getElem?_mapIdx]
  cases s.ksu.keys[j]? <;> simp [h]

theorem keyAt_of_ksu {s t : State} (h : t.ksu = s.ksu) (j : Nat) : keyAt t j = keyAt s j := by
  simp only [keyAt, h]

/-- The ignore mark on a key in PRESSING, DOWN or RELEASING (R10). -/
theorem markIgnored_eq (k : Key) : k.markIgnored = { k with ignore := k.ignore || k.isActive } := by
  unfold Key.markIgnored
  split
  · next h => simp [h]
  · next h => simp [h]

@[simp] theorem keyAt_ignoreActive (s : State) (j : Nat) :
    keyAt (ignoreActive s) j = { keyAt s j with ignore := (keyAt s j).ignore || (keyAt s j).isActive } := by
  rw [ignoreActive, keyAt_mapKeys _ _ _ rfl, markIgnored_eq]

@[simp] theorem keyAt_clearTouched (s : State) (j : Nat) : keyAt (clearTouched s) j = { keyAt s j with touched := false } := by
  rw [clearTouched, keyAt_mapKeys _ _ _ rfl]
  rfl

@[simp] theorem keyAt_clearChord (s : State) (j : Nat) : keyAt (clearChord s) j = { keyAt s j with touched := false } :=
  keyAt_clearTouched s j

@[simp] theorem keyAt_openChord (i : Nat) (s : State) (j : Nat) : keyAt (openChord i s) j = { keyAt s j with touched := false } :=
  keyAt_clearTouched s j

/-- An abandoned chord leaves the ignore mark on each key in PRESSING, DOWN or RELEASING, and no light touch (R19). -/
theorem keyAt_abandonChord (s : State) (j : Nat) (h : s.chords.chord ≠ none) :
    keyAt (abandonChord s) j = { keyAt s j with ignore := (keyAt s j).ignore || (keyAt s j).isActive, touched := false } := by
  unfold abandonChord
  split
  · next hn => exact absurd hn h
  · simp

/-- With no chord open nothing is abandoned (R19). -/
theorem abandonChord_none (s : State) (h : s.chords.chord = none) : abandonChord s = s := by
  simp [abandonChord, h]

@[simp] theorem keyAt_stuck (press : KeySet) (s : State) (j : Nat) :
    keyAt (mapKeys (stickKey press) s) j = stickKey press j (keyAt s j) :=
  keyAt_mapKeys _ _ _ (by simp [stickKey, Key.isHeld, Key.cold])

/-! ### Operations that change marks on keys alone -/

/-- Nothing of the Key Sensing Unit has changed but ignore marks and light-touched marks. -/
def MarksOnly (s t : State) : Prop :=
  t.ksu = { s.ksu with keys := t.ksu.keys } ∧ ∀ j, ∃ g u, keyAt t j = { keyAt s j with ignore := g, touched := u }

theorem MarksOnly.of_ksu {s t : State} (h : t.ksu = s.ksu) : MarksOnly s t :=
  ⟨by rw [h], fun j => ⟨_, _, keyAt_of_ksu h j⟩⟩

theorem MarksOnly.trans {s t u : State} (h1 : MarksOnly s t) (h2 : MarksOnly t u) : MarksOnly s u := by
  refine ⟨by rw [h2.1, h1.1], fun j => ?_⟩
  obtain ⟨g1, u1, e1⟩ := h1.2 j
  obtain ⟨g2, u2, e2⟩ := h2.2 j
  exact ⟨g2, u2, by rw [e2, e1]⟩

theorem MarksOnly.st {s t : State} (h : MarksOnly s t) (j : Nat) : (keyAt t j).st = (keyAt s j).st := by
  obtain ⟨_, _, e⟩ := h.2 j
  rw [e]

theorem MarksOnly.count {s t : State} (h : MarksOnly s t) (j : Nat) : (keyAt t j).count = (keyAt s j).count := by
  obtain ⟨_, _, e⟩ := h.2 j
  rw [e]

theorem MarksOnly.depth {s t : State} (h : MarksOnly s t) (j : Nat) : (keyAt t j).depth = (keyAt s j).depth := by
  obtain ⟨_, _, e⟩ := h.2 j
  rw [e]

theorem MarksOnly.cond {s t : State} (h : MarksOnly s t) (j : Nat) : (keyAt t j).cond = (keyAt s j).cond := by
  obtain ⟨_, _, e⟩ := h.2 j
  rw [e]

theorem setKey_marksOnly (i : Nat) (g u : Bool) (s : State) :
    MarksOnly s (setKey i { keyAt s i with ignore := g, touched := u } s) := by
  refine ⟨rfl, fun j => ?_⟩
  rw [keyAt_setKey]
  split
  · next h => exact ⟨g, u, by rw [h.1]⟩
  · exact ⟨_, _, rfl⟩

theorem clearChord_marksOnly (s : State) : MarksOnly s (clearChord s) :=
  ⟨rfl, fun j => ⟨_, _, keyAt_clearChord s j⟩⟩

theorem openChord_marksOnly (i : Nat) (s : State) : MarksOnly s (openChord i s) :=
  ⟨rfl, fun j => ⟨_, _, keyAt_openChord i s j⟩⟩

theorem abandonChord_marksOnly (s : State) : MarksOnly s (abandonChord s) := by
  by_cases h : s.chords.chord = none
  · rw [abandonChord_none s h]
    exact .of_ksu rfl
  · refine ⟨?_, fun j => ⟨_, _, keyAt_abandonChord s j h⟩⟩
    unfold abandonChord
    split <;> rfl

/-! ### The close of a chord, by the stroke counter and the press set (R17, R18, R20) -/

theorem closeChord_top (c : Chord) (s : State) (h : 4294967295 ≤ s.chords.strokes) : closeChord c s = abandonChord s := by
  simp [closeChord, h]

theorem closeChord_empty (c : Chord) (s : State) (h : s.chords.strokes < 4294967295) (hp : c.press = 0) :
    closeChord c s = clearChord s := by
  simp [closeChord, Nat.not_le.2 h, hp]

theorem closeChord_stroke (c : Chord) (s : State) (h : s.chords.strokes < 4294967295) (hp : c.press ≠ 0) :
    closeChord c s = clearChord (handOver (strokeOf c s)
      (append (strokeEntry (strokeOf c s)) (setStrokes (s.chords.strokes + 1) s))) := by
  simp only [closeChord, Nat.not_le.2 h, hp, if_false]
  rfl

/-- A chord that closes is abandoned, cleared, or cleared with a stroke formed. -/
theorem closeChord_cases (c : Chord) (s : State) :
    (4294967295 ≤ s.chords.strokes ∧ closeChord c s = abandonChord s) ∨
    (s.chords.strokes < 4294967295 ∧ c.press = 0 ∧ closeChord c s = clearChord s) ∨
    (s.chords.strokes < 4294967295 ∧ c.press ≠ 0 ∧ closeChord c s = clearChord (handOver (strokeOf c s)
      (append (strokeEntry (strokeOf c s)) (setStrokes (s.chords.strokes + 1) s)))) := by
  by_cases h : 4294967295 ≤ s.chords.strokes
  · exact .inl ⟨h, closeChord_top c s h⟩
  · have h := Nat.not_le.1 h
    by_cases hp : c.press = 0
    · exact .inr (.inl ⟨h, hp, closeChord_empty c s h hp⟩)
    · exact .inr (.inr ⟨h, hp, closeChord_stroke c s h hp⟩)

/-- A stroke is formed, journaled and handed over without a change of the keys. -/
theorem strokeFormed_ksu (k : Stroke) (e : Entry) (n : Nat) (s : State) : (handOver k (append e (setStrokes n s))).ksu = s.ksu := by
  simp

theorem closeChord_marksOnly (c : Chord) (s : State) : MarksOnly s (closeChord c s) := by
  rcases closeChord_cases c s with ⟨_, e⟩ | ⟨_, _, e⟩ | ⟨_, _, e⟩ <;> rw [e]
  · exact abandonChord_marksOnly s
  · exact clearChord_marksOnly s
  · exact (MarksOnly.of_ksu (strokeFormed_ksu _ _ _ s)).trans (clearChord_marksOnly _)

/-- A chord that closes leaves no light-touched mark (R11). -/
theorem closeChord_touched (c : Chord) (s : State) (h : s.chords.chord ≠ none) (j : Nat) : (keyAt (closeChord c s) j).touched = false := by
  rcases closeChord_cases c s with ⟨_, e⟩ | ⟨_, _, e⟩ | ⟨_, _, e⟩ <;> rw [e]
  · rw [keyAt_abandonChord s j h]
  · rw [keyAt_clearChord]
  · rw [keyAt_clearChord]

/-- A key that is not PRESSING, DOWN or RELEASING takes no ignore mark when a chord closes. -/
theorem closeChord_ignore (c : Chord) (s : State) (j : Nat) (ha : (keyAt s j).isActive = false) :
    (keyAt (closeChord c s) j).ignore = (keyAt s j).ignore := by
  rcases closeChord_cases c s with ⟨_, e⟩ | ⟨_, _, e⟩ | ⟨_, _, e⟩ <;> rw [e]
  · by_cases h : s.chords.chord = none
    · rw [abandonChord_none s h]
    · simp [keyAt_abandonChord s j h, ha]
  · rw [keyAt_clearChord]
  · rw [keyAt_clearChord, keyAt_of_ksu (strokeFormed_ksu _ _ _ s)]

/-- A chord that closes changes the session only by ending CLOSING. -/
theorem closeChord_session (c : Chord) (s : State) : SessionKept s (closeChord c s) := by
  rcases closeChord_cases c s with ⟨_, e⟩ | ⟨_, _, e⟩ | ⟨_, _, e⟩ <;> rw [e]
  · exact .of_eq (by simp)
  · exact .of_eq (by simp)
  · exact .after (.of_eq (by simp)) (append_session (strokeEntry (strokeOf c s)) (setStrokes (s.chords.strokes + 1) s))

/-- A stroke formed: the counter, the Translator and the journal (R17, R20, R21). -/
theorem closeChord_stroke_parts (c : Chord) (s : State) (h : s.chords.strokes < 4294967295) (hp : c.press ≠ 0) :
    (closeChord c s).chords = { chord := none, strokes := s.chords.strokes + 1 } ∧
      (closeChord c s).trans = { s.trans with handed := s.trans.handed ++ [strokeOf c s] } ∧
      (closeChord c s).journal = (append (strokeEntry (strokeOf c s)) (setStrokes (s.chords.strokes + 1) s)).journal := by
  rw [closeChord_stroke c s h hp]
  simp [clearChord]

/-! ### Held keys and light-touched keys of a list -/

theorem cold_not_held : Key.cold.isHeld = false := rfl

/-- Some key of a set is held, by index. -/
theorem anyHeld_iff (press : KeySet) (i : Nat) (ks : List Key) :
    anyHeld press i ks = true ↔ ∃ j, press.getLsbD (i + j) = true ∧ (ks.getD j Key.cold).isHeld = true := by
  induction ks generalizing i with
  | nil => simp [anyHeld, cold_not_held]
  | cons k ks ih =>
    simp only [anyHeld, Bool.or_eq_true, Bool.and_eq_true, ih]
    constructor
    · rintro (⟨hp, hk⟩ | ⟨j, hp, hk⟩)
      · exact ⟨0, by simpa using hp, by simpa using hk⟩
      · exact ⟨j + 1, by rwa [show i + (j + 1) = i + 1 + j by omega], by simpa using hk⟩
    · rintro ⟨j, hp, hk⟩
      cases j with
      | zero => exact .inl ⟨by simpa using hp, by simpa using hk⟩
      | succ j => exact .inr ⟨j, by rwa [show i + 1 + j = i + (j + 1) by omega], by simpa using hk⟩

/-- The light-touched keys stay the same when a key is replaced by one with the same mark. -/
theorem touchedFrom_set (n i : Nat) (k : Key) (ks : List Key) (h : ∀ x, ks[i]? = some x → k.touched = x.touched) :
    touchedFrom n (ks.set i k) = touchedFrom n ks := by
  induction ks generalizing n i with
  | nil => rfl
  | cons x xs ih =>
    cases i with
    | zero => simp [touchedFrom, h x rfl]
    | succ i => simp [touchedFrom, ih (n + 1) i (by simpa using h)]

end Sys2Proof.Machine

/-! A sample of a key (O10). -/

namespace Sys2Proof.Machine

/-! ### What every step of the key machine keeps and reports -/

/-- A step stores the depth and leaves the conditioning record and the light-touched mark. -/
theorem step_keeps (cp cr h : Nat) (k : Key) (d : Nat) :
    (k.step cp cr h d).1.depth = d ∧ (k.step cp cr h d).1.cond = k.cond ∧ (k.step cp cr h d).1.touched = k.touched := by
  unfold Key.step Key.toUp Key.toDown
  dsimp only
  repeat' split
  all_goals exact ⟨rfl, rfl, rfl⟩

/-- A key reported DOWN is DOWN, with the ignore mark it had. -/
theorem step_wentDown (cp cr h : Nat) (k : Key) (d : Nat) (hm : (k.step cp cr h d).2 = .wentDown) :
    (k.step cp cr h d).1.st = .down ∧ (k.step cp cr h d).1.ignore = k.ignore := by
  revert hm
  unfold Key.step Key.toUp Key.toDown
  dsimp only
  repeat' split
  all_goals simp

/-- A key reported UP is UP, without the ignore mark. -/
theorem step_wentUp (cp cr h : Nat) (k : Key) (d : Nat) (hm : (k.step cp cr h d).2 = .wentUp) :
    (k.step cp cr h d).1.st = .up ∧ (k.step cp cr h d).1.ignore = false := by
  revert hm
  unfold Key.step Key.toUp Key.toDown
  dsimp only
  repeat' split
  all_goals simp

/-- A key that comes UP loses its ignore mark (R10). -/
theorem step_to_up (cp cr h : Nat) (k : Key) (d : Nat) (hk : k.st ≠ .up) (hm : (k.step cp cr h d).1.st = .up) :
    (k.step cp cr h d).1.ignore = false := by
  revert hm
  unfold Key.step Key.toUp Key.toDown
  dsimp only
  repeat' split
  all_goals simp_all

/-- A STUCK key reports nothing (R9). -/
theorem step_stuck_stayed (cp cr h : Nat) (k : Key) (d : Nat) (hk : k.st = .stuck) : (k.step cp cr h d).2 = .stayed := by
  rw [step_stuck _ _ _ _ _ hk]
  repeat' split
  all_goals rfl

/-! ### The step of the key at the scan's place -/

/-- The step that a raw sample makes the key at the scan's place take (R1, R2). -/
def sampleStep (raw : Nat) (s : State) : Key × KeyMove :=
  (keyAt s s.ksu.scanPos).step s.ksu.pressCount s.ksu.releaseCount s.ksu.hysteresis
    (conditionDepth (keyAt s s.ksu.scanPos).cond.offset (keyAt s s.ksu.scanPos).cond.gain raw)

/-- A sample's step, before its report: the scan's place, the zeroing, and the move reported. -/
theorem stepSample_parts (raw : Nat) (s : State) :
    (stepSample raw s).1.ksu.scanPos = nextKey s.ksu.scanPos ∧
      (stepSample raw s).1.ksu.zeroing = s.ksu.zeroing.map (fun z => z.collect s.ksu.scanPos raw) ∧
      (stepSample raw s).1.ksu.holdLimit = s.ksu.holdLimit ∧
      (stepSample raw s).1.ksu.keys = s.ksu.keys.set s.ksu.scanPos (sampleStep raw s).1 ∧
      (stepSample raw s).2 = (sampleStep raw s).2 :=
  ⟨rfl, rfl, rfl, rfl, rfl⟩

theorem keyAt_stepSample (raw : Nat) (s : State) (j : Nat) (h : s.ksu.scanPos < s.ksu.keys.length) :
    keyAt (stepSample raw s).1 j = if s.ksu.scanPos = j then (sampleStep raw s).1 else keyAt s j := by
  have := keyAt_setKey s.ksu.scanPos j (sampleStep raw s).1 s
  simp only [h, and_true] at this
  exact this

/-! ### The report and the light touch -/

theorem keyWentDown_marksOnly (i : Nat) (s : State) : MarksOnly s (keyWentDown i s) := by
  unfold keyWentDown
  repeat' split
  · exact setKey_marksOnly i true (keyAt s i).touched s
  · exact .of_ksu rfl
  · exact openChord_marksOnly i s
  · exact .of_ksu rfl

theorem keyWentUp_marksOnly (i : Nat) (s : State) : MarksOnly s (keyWentUp i s) := by
  rcases keyWentUp_cases i s with e | ⟨c, _, e⟩ <;> rw [e]
  · exact .of_ksu rfl
  · exact closeChord_marksOnly c s

theorem reportMove_marksOnly (i : Nat) (m : KeyMove) (s : State) : MarksOnly s (reportMove i m s) := by
  cases m with
  | stayed => exact .of_ksu rfl
  | wentDown => exact keyWentDown_marksOnly i s
  | wentUp => exact keyWentUp_marksOnly i s

theorem lightTouch_marksOnly (i : Nat) (k : Key) (s : State) : MarksOnly s (lightTouch i k s) := by
  unfold lightTouch
  dsimp only
  split
  · exact setKey_marksOnly i (keyAt s i).ignore true s
  · exact .of_ksu rfl

/-- A sample changes nothing but marks on keys after its step. -/
theorem takeSample_marksOnly (raw : Nat) (s : State) : MarksOnly (stepSample raw s).1 (takeSample raw s) :=
  (reportMove_marksOnly _ _ _).trans (lightTouch_marksOnly _ _ _)

/-- A report sets no light-touched mark. -/
theorem reportMove_touched (i j : Nat) (m : KeyMove) (s : State) (h : (keyAt (reportMove i m s) j).touched = true) :
    (keyAt s j).touched = true := by
  cases m with
  | stayed => exact h
  | wentDown =>
    simp only [reportMove, keyWentDown] at h
    repeat' split at h
    · rw [keyAt_setKey] at h
      split at h
      · next hij => rwa [← hij.1]
      · exact h
    · exact h
    · rw [keyAt_openChord] at h
      exact absurd h Bool.false_ne_true
    · exact h
  | wentUp =>
    rcases keyWentUp_cases i s with e | ⟨c, hc, e⟩ <;> rw [reportMove, e] at h
    · exact h
    · simp [closeChord_touched c s (by simp [hc])] at h

/-- A sample that does not meet the conditions of R11 touches no key lightly. -/
theorem lightTouch_none (i : Nat) (before : Key) (s : State)
    (h : s.chords.chord = none ∨ (keyAt s i).cond.light = 0 ∨ ((keyAt s i).st ≠ .up ∧ (keyAt s i).st ≠ .pressing) ∨
      (keyAt s i).depth < (keyAt s i).cond.light ∨ before.ignore = true ∨ before.st = .stuck) : lightTouch i before s = s := by
  unfold lightTouch
  dsimp only
  rw [if_neg]
  rintro ⟨hc, hl, hst, hd, hi, hs⟩
  rcases h with h | h | ⟨h1, h2⟩ | h | h | h
  · simp [h] at hc
  · omega
  · exact hst.elim h1 h2
  · omega
  · simp [h] at hi
  · exact hs h

/-- A sample that meets the conditions of R11 marks its key light-touched. -/
theorem lightTouch_marks (i : Nat) (before : Key) (s : State) (hlen : i < s.ksu.keys.length) (hc : s.chords.chord ≠ none)
    (hl : 0 < (keyAt s i).cond.light) (hst : (keyAt s i).st = .up ∨ (keyAt s i).st = .pressing)
    (hd : (keyAt s i).cond.light ≤ (keyAt s i).depth) (hi : before.ignore = false) (hs : before.st ≠ .stuck) :
    (keyAt (lightTouch i before s) i).touched = true := by
  unfold lightTouch
  dsimp only
  rw [if_pos ⟨Option.isSome_iff_ne_none.2 hc, hl, hst, hd, hi, hs⟩, keyAt_setKey, if_pos ⟨rfl, hlen⟩]

/-! ### A zeroing that collects a sample -/

/-- A zeroing that has begun, or begins with this sample, adds it to the key's sums alone, until the key has 64 (R12). -/
theorem collect_begun (z : Zeroing) (i raw : Nat) (h : z.begun = true ∨ i = 0) :
    (z.collect i raw).begun = true ∧ (z.collect i raw).accs.length = z.accs.length ∧
      (∀ j, j ≠ i → (z.collect i raw).accs[j]? = z.accs[j]?) ∧
      ∀ a, z.accs[i]? = some a → (z.collect i raw).accs[i]? = some
        (if 64 ≤ a.count then a
         else if a.count = 0 then { sum := a.sum + raw, count := 1, min := raw, max := raw }
         else { sum := a.sum + raw, count := a.count + 1, min := min a.min raw, max := max a.max raw }) := by
  have hb : (z.begun || decide (i = 0)) = true := by simpa using h
  have e : z.collect i raw =
      { begun := true, accs := z.accs.modify i (fun a => if a.count < zeroScans then a.add raw else a) } := by
    simp only [Zeroing.collect, hb, if_true]
  rw [e]
  refine ⟨rfl, by simp, fun j hj => by simp [hj.symm], fun a ha => ?_⟩
  simp only [List.getElem?_modify, ha, if_true, Option.map_eq_map, Option.map_some, ZeroAcc.add]
  by_cases hc : 64 ≤ a.count
  · rw [if_neg (Nat.not_lt.2 hc), if_pos hc]
  · rw [if_pos (Nat.not_le.1 hc), if_neg hc]

/-- A zeroing that has not begun waits for the sample of KS0 (R12). -/
theorem collect_waits (z : Zeroing) (i raw : Nat) (hb : z.begun = false) (hi : i ≠ 0) : z.collect i raw = z := by
  simp [Zeroing.collect, hb, hi]

/-! ### A key that becomes DOWN (R10, R15, R16) -/

theorem keyWentDown_opens (i : Nat) (s : State) (hl : s.session.st = .live) (hi : (keyAt s i).ignore = false)
    (hc : s.chords.chord = none) : keyWentDown i s = openChord i s := by
  simp [keyWentDown, hl, hi, hc]

theorem keyWentDown_joins (i : Nat) (s : State) (c : Chord) (hl : s.session.st = .live) (hi : (keyAt s i).ignore = false)
    (hc : s.chords.chord = some c) : keyWentDown i s = setChord (some { c with press := c.press ||| BitVec.twoPow 23 i }) s := by
  simp [keyWentDown, hl, hi, hc]

/-- Outside LIVE, or under the ignore mark, the key stays out of the chord and carries the mark. -/
theorem keyWentDown_ignored (i : Nat) (s : State) (hlen : i < s.ksu.keys.length)
    (h : s.session.st ≠ .live ∨ (keyAt s i).ignore = true) :
    (keyAt (keyWentDown i s) i).ignore = true ∧ (keyWentDown i s).chords = s.chords := by
  by_cases hl : s.session.st = .live
  · have hi : (keyAt s i).ignore = true := h.resolve_left (not_not.2 hl)
    simp [keyWentDown, hl, hi]
  · simp [keyWentDown, hl, keyAt_setKey, hlen]

/-! ### The sample taken whole -/

theorem exec_keySample (raw : BitVec 12) (s : State) (h : s.pins.rstnHeld = false) :
    exec (.keySample raw) s = .next (takeSample raw.toNat s) := by
  show Host.Outcome.next (if s.pins.rstnHeld then s else takeSample raw.toNat s) = _
  rw [h]
  rfl

section Sample

variable (raw : Nat) (s : State)

/-- The sample in its three parts: the step, its report, the light touch. -/
theorem takeSample_eq : takeSample raw s =
    lightTouch s.ksu.scanPos (keyAt s s.ksu.scanPos) (reportMove s.ksu.scanPos (sampleStep raw s).2 (stepSample raw s).1) := rfl

theorem takeSample_chords : (takeSample raw s).chords =
    (reportMove s.ksu.scanPos (sampleStep raw s).2 (stepSample raw s).1).chords := by
  simp [takeSample_eq]

/-- A STUCK key leaves the chord (R9). -/
theorem takeSample_stuck (hs : (keyAt s s.ksu.scanPos).st = .stuck) : (takeSample raw s).chords = s.chords := by
  have hm : (sampleStep raw s).2 = .stayed := step_stuck_stayed _ _ _ _ _ hs
  rw [takeSample_chords, hm]
  simp [reportMove]

/-- The light touch leaves every ignore mark. -/
theorem lightTouch_ignore (i j : Nat) (k : Key) (s : State) : (keyAt (lightTouch i k s) j).ignore = (keyAt s j).ignore := by
  unfold lightTouch
  dsimp only
  split
  · rw [keyAt_setKey]
    split
    · next h => rw [← h.1]
    · rfl
  · rfl

variable (hlen : s.ksu.scanPos < s.ksu.keys.length)
include hlen

/-- The key at the scan's place after its step. -/
theorem keyAt_stepSample_self : keyAt (stepSample raw s).1 s.ksu.scanPos = (sampleStep raw s).1 := by
  rw [keyAt_stepSample raw s _ hlen, if_pos rfl]

theorem stepSample_length : s.ksu.scanPos < (stepSample raw s).1.ksu.keys.length := by
  rw [(stepSample_parts raw s).2.2.2.1, List.length_set]
  exact hlen

/-- The sampled key: state, count and depth are those of its step. -/
theorem takeSample_key : (keyAt (takeSample raw s) s.ksu.scanPos).st = (sampleStep raw s).1.st ∧
    (keyAt (takeSample raw s) s.ksu.scanPos).count = (sampleStep raw s).1.count ∧
    (keyAt (takeSample raw s) s.ksu.scanPos).depth = (sampleStep raw s).1.depth := by
  have h := takeSample_marksOnly raw s
  rw [h.st, h.count, h.depth, keyAt_stepSample_self raw s hlen]
  exact ⟨rfl, rfl, rfl⟩

theorem takeSample_cond (j : Nat) : (keyAt (takeSample raw s) j).cond = (keyAt s j).cond := by
  rw [(takeSample_marksOnly raw s).cond, keyAt_stepSample raw s j hlen]
  split
  · next h => rw [← h]; exact (step_keeps _ _ _ _ _).2.1
  · rfl

/-- Every other key keeps state, count and depth. -/
theorem takeSample_others (j : Nat) (hj : j ≠ s.ksu.scanPos) : (keyAt (takeSample raw s) j).st = (keyAt s j).st ∧
    (keyAt (takeSample raw s) j).count = (keyAt s j).count ∧ (keyAt (takeSample raw s) j).depth = (keyAt s j).depth := by
  have h := takeSample_marksOnly raw s
  rw [h.st, h.count, h.depth, keyAt_stepSample raw s j hlen, if_neg hj.symm]
  exact ⟨rfl, rfl, rfl⟩

/-- A key that becomes DOWN in LIVE with no chord open opens one at itself, with no key light-touched (R15). -/
theorem takeSample_opens (hm : (sampleStep raw s).2 = .wentDown) (hl : s.session.st = .live)
    (hi : (keyAt s s.ksu.scanPos).ignore = false) (hc : s.chords.chord = none) :
    (takeSample raw s).chords = { s.chords with chord := some {
      press := BitVec.twoPow 23 s.ksu.scanPos, start := s.session.clock, held := false, stuckExcluded := false
      hold := some (s.now + s.ksu.holdLimit) } } ∧ ∀ j, (keyAt (takeSample raw s) j).touched = false := by
  obtain ⟨hst, hig⟩ := step_wentDown _ _ _ _ _ hm
  have e : reportMove s.ksu.scanPos (sampleStep raw s).2 (stepSample raw s).1 = openChord s.ksu.scanPos (stepSample raw s).1 := by
    rw [hm]
    refine keyWentDown_opens _ _ (by simpa using hl) ?_ (by simpa using hc)
    rw [keyAt_stepSample_self raw s hlen, ← hi]
    exact hig
  constructor
  · rw [takeSample_chords, e]
    simp [openChord, (stepSample_parts raw s).2.2.1]
  · intro j
    rw [takeSample_eq, e, lightTouch_none, keyAt_openChord]
    refine .inr (.inr (.inl ?_))
    rw [keyAt_openChord, keyAt_stepSample_self raw s hlen]
    show (sampleStep raw s).1.st ≠ .up ∧ (sampleStep raw s).1.st ≠ .pressing
    rw [show (sampleStep raw s).1.st = .down from hst]
    exact ⟨by simp, by simp⟩

/-- A key that becomes DOWN in LIVE with a chord open joins its press set (R16). -/
theorem takeSample_joins (c : Chord) (hm : (sampleStep raw s).2 = .wentDown) (hl : s.session.st = .live)
    (hi : (keyAt s s.ksu.scanPos).ignore = false) (hc : s.chords.chord = some c) :
    (takeSample raw s).chords = { s.chords with chord := some { c with press := c.press ||| BitVec.twoPow 23 s.ksu.scanPos } } := by
  have hi' : (keyAt (stepSample raw s).1 s.ksu.scanPos).ignore = false := by
    rw [keyAt_stepSample_self raw s hlen, ← hi]
    exact (step_wentDown _ _ _ _ _ hm).2
  rw [takeSample_chords, hm]
  show (keyWentDown _ _).chords = _
  rw [keyWentDown_joins _ _ c (by simpa using hl) hi' (by simpa using hc)]
  simp

/-- A key that becomes DOWN outside LIVE, or under the ignore mark, carries the mark and leaves the chord (R10). -/
theorem takeSample_ignored (hm : (sampleStep raw s).2 = .wentDown)
    (h : s.session.st ≠ .live ∨ (keyAt s s.ksu.scanPos).ignore = true) :
    (keyAt (takeSample raw s) s.ksu.scanPos).ignore = true ∧ (takeSample raw s).chords = s.chords := by
  have h' := keyWentDown_ignored s.ksu.scanPos (stepSample raw s).1 (stepSample_length raw s hlen) (by
    rw [keyAt_stepSample_self raw s hlen]
    refine h.imp (by simp) fun hi => ?_
    rw [← hi]
    exact (step_wentDown _ _ _ _ _ hm).2)
  rw [takeSample_chords, takeSample_eq, lightTouch_ignore, hm]
  exact ⟨h'.1, by simpa [reportMove] using h'.2⟩

/-- A key that comes UP leaves its ignore mark behind (R10). -/
theorem takeSample_comes_up (hk : (keyAt s s.ksu.scanPos).st ≠ .up) (hst : (sampleStep raw s).1.st = .up) :
    (keyAt (takeSample raw s) s.ksu.scanPos).ignore = false := by
  have hx := keyAt_stepSample_self raw s hlen
  have hig : (keyAt (stepSample raw s).1 s.ksu.scanPos).ignore = false := by
    rw [hx]
    exact step_to_up _ _ _ _ _ hk hst
  rw [takeSample_eq, lightTouch_ignore]
  cases hm : (sampleStep raw s).2 with
  | stayed => exact hig
  | wentDown =>
    have hd : (sampleStep raw s).1.st = .down := (step_wentDown _ _ _ _ _ hm).1
    rw [hst] at hd
    exact absurd hd (by simp)
  | wentUp =>
    rcases keyWentUp_cases s.ksu.scanPos (stepSample raw s).1 with e | ⟨c, _, e⟩ <;> rw [reportMove, e]
    · exact hig
    · rw [closeChord_ignore _ _ _ (by simp [hx, Key.isActive, Key.isHeld, hst]), hig]

/-- A sample in UP or PRESSING at or past the light threshold marks its key while a chord stays open (R11). -/
theorem takeSample_touches (hc : s.chords.chord ≠ none) (ht : (takeSample raw s).chords.chord ≠ none)
    (hst : (sampleStep raw s).1.st = .up ∨ (sampleStep raw s).1.st = .pressing) (hl : 0 < (keyAt s s.ksu.scanPos).cond.light)
    (hd : (keyAt s s.ksu.scanPos).cond.light ≤ (sampleStep raw s).1.depth) (hi : (keyAt s s.ksu.scanPos).ignore = false)
    (hs : (keyAt s s.ksu.scanPos).st ≠ .stuck) : (keyAt (takeSample raw s) s.ksu.scanPos).touched = true := by
  have hx := keyAt_stepSample_self raw s hlen
  have hcond : (sampleStep raw s).1.cond = (keyAt s s.ksu.scanPos).cond := (step_keeps _ _ _ _ _).2.1
  have e : reportMove s.ksu.scanPos (sampleStep raw s).2 (stepSample raw s).1 = (stepSample raw s).1 := by
    rw [takeSample_chords] at ht
    cases hm : (sampleStep raw s).2 with
    | stayed => rfl
    | wentDown =>
      have hdn : (sampleStep raw s).1.st = .down := (step_wentDown _ _ _ _ _ hm).1
      rw [hdn] at hst
      simp at hst
    | wentUp =>
      rw [hm] at ht
      refine (keyWentUp_cases s.ksu.scanPos (stepSample raw s).1).resolve_right ?_
      rintro ⟨c, _, e⟩
      rw [reportMove, e] at ht
      exact ht (closeChord_no_chord c _)
  rw [takeSample_eq, e]
  refine lightTouch_marks _ _ _ (stepSample_length raw s hlen) (by simpa using hc) ?_ ?_ ?_ hi hs <;> rw [hx]
  · rwa [hcond]
  · exact hst
  · rwa [hcond]

/-- A sample that R11 does not take as a light touch leaves no mark that was not there. -/
theorem takeSample_untouched
    (h : (keyAt s s.ksu.scanPos).ignore = true ∨ (keyAt s s.ksu.scanPos).st = .stuck ∨ (keyAt s s.ksu.scanPos).cond.light = 0 ∨
      (sampleStep raw s).1.depth < (keyAt s s.ksu.scanPos).cond.light)
    (ht : (keyAt (takeSample raw s) s.ksu.scanPos).touched = true) : (keyAt s s.ksu.scanPos).touched = true := by
  have hx := keyAt_stepSample_self raw s hlen
  obtain ⟨_, hcond, htouch⟩ : _ ∧ (sampleStep raw s).1.cond = (keyAt s s.ksu.scanPos).cond ∧
    (sampleStep raw s).1.touched = (keyAt s s.ksu.scanPos).touched := step_keeps _ _ _ _ _
  have hr := reportMove_marksOnly s.ksu.scanPos (sampleStep raw s).2 (stepSample raw s).1
  rw [takeSample_eq, lightTouch_none] at ht
  · rw [← htouch, ← hx]
    exact reportMove_touched _ _ _ _ ht
  · rw [hr.cond, hr.depth, hx, hcond]
    tauto

end Sample

/-- What becomes of a running zeroing, or of none. -/
theorem takeSample_zeroing (raw : Nat) (s : State) :
    (takeSample raw s).ksu.zeroing = s.ksu.zeroing.map (fun z => z.collect s.ksu.scanPos raw) := by
  rw [(takeSample_marksOnly raw s).1]
  rfl

theorem takeSample_scanPos (raw : Nat) (s : State) : (takeSample raw s).ksu.scanPos = nextKey s.ksu.scanPos := by
  rw [(takeSample_marksOnly raw s).1]
  rfl

/-- Settles O10: the parts of a sample taken whole, each by its own lemma. -/
theorem keySampleStepsOneKey : Obligations.KeySampleStepsOneKey := by
  intro raw s hr h23 hp
  have hlen : s.ksu.scanPos < s.ksu.keys.length := by omega
  obtain ⟨hst, hcount, hdepth⟩ := takeSample_key raw.toNat s hlen
  obtain ⟨hd, -, -⟩ : (sampleStep raw.toNat s).1.depth = _ ∧ _ := step_keeps _ _ _ _ _
  refine ⟨_, exec_keySample raw s hr, ?_, hdepth.trans hd, hst, takeSample_cond _ s hlen, takeSample_others _ s hlen, ?_, ?_, ?_, ?_⟩
  · rw [takeSample_scanPos, nextKey]
    simp only [nKeys]
    split <;> omega
  · rintro k d r rfl rfl rfl
    refine ⟨takeSample_opens _ s hlen, fun c => takeSample_joins _ s hlen c, fun hm hl => takeSample_ignored _ s hlen hm (.inl hl),
      fun hm hi => takeSample_ignored _ s hlen hm (.inr hi), takeSample_comes_up _ s hlen,
      fun hc ht hs hl hdl => takeSample_touches _ s hlen hc ht hs hl (hd ▸ hdl), fun h => takeSample_untouched _ s hlen (hd ▸ h),
      fun hs => ⟨takeSample_stuck _ s hs, ?_⟩⟩
    have e : sampleStep raw.toNat s = _ := step_stuck _ _ _ _ _ hs
    rw [hst, hcount, e]
    refine ⟨fun h => ?_, fun h hc => ?_, fun h hc => ?_⟩
    · rw [if_pos h]
      exact ⟨hs, rfl⟩
    · rw [if_neg (Nat.not_le.2 h), if_neg (Nat.not_le.2 hc)]
      exact ⟨hs, rfl⟩
    · rw [if_neg (Nat.not_le.2 h), if_pos hc]
      exact ⟨rfl, rfl⟩
  · intro hz
    rw [takeSample_zeroing, hz]
    rfl
  · intro z hz
    rw [takeSample_zeroing, hz]
    refine ⟨fun hb hi => congrArg some (collect_waits z _ _ hb hi), fun h => ?_⟩
    exact ⟨_, rfl, collect_begun z _ _ h⟩
  · simp

end Sys2Proof.Machine

/-! The end of a chord: by the release of its last held key (O13) and by its hold timer (O14). -/

namespace Sys2Proof.Machine

/-! ### An entry asked for -/

/-- Below its top a counter counts on. -/
theorem succHold_of_lt {top n : Nat} (h : n < top) : succHold top n = n + 1 := by simp [succHold, h]

/-- An entry that finds the journal NORMAL and a FILLING block with room joins that block, and nothing else changes (R28, R29). -/
theorem append_with_room (e : Entry) (s : State) (i : Fin 4) (b : Block) (hc : s.journal.cond = .normal)
    (hf : findFilling s.journal.buffers = some (i, b)) (hb : b.entries.length < 63) (hn : s.journal.nextEntry < 4294967295) :
    append e s = { s with journal := { s.journal with
      buffers := s.journal.buffers.set i (.filling (b.add e)), nextEntry := s.journal.nextEntry + 1 } } := by
  have hlen : ¬blockEntries ≤ (b.add e).entries.length := by
    simp only [blockEntries, Block.add, List.length_append, List.length_singleton]
    omega
  simp [append, hc, hf, putEntry, hlen, hn, succHold_of_lt hn]

theorem append_joins (e : Entry) (s : State) : EntryJoins e s (append e s) := fun i b hc hf hb hn => by
  rw [append_with_room e s i b hc hf hb hn]

/-- A stroke's entry that finds the journal SUSPENDED is counted missed (R42). -/
theorem append_suspended (k : Stroke) (s : State) (hc : s.journal.cond = .suspended) :
    (append (strokeEntry k) s).journal.missedStrokes =
        (if s.journal.missedStrokes < 16777215 then s.journal.missedStrokes + 1 else 16777215) ∧
      (append (strokeEntry k) s).journal.firstMissed = some (s.journal.firstMissed.getD k.seq) := by
  simp [append, hc, countMissed, strokeEntry, succHold]

/-! ### The release of the last held key -/

section Release

variable (raw : Nat) (s : State) (c : Chord) (hlen : s.ksu.scanPos < s.ksu.keys.length) (hm : (sampleStep raw s).2 = .wentUp)
  (hlast : ∀ j, j ≠ s.ksu.scanPos → c.press.getLsbD j = true → (keyAt s j).isHeld = false)
include hlen hm hlast

/-- With the sampled key UP no key of the press set is held. -/
theorem none_held_after : anyHeld c.press 0 (stepSample raw s).1.ksu.keys = false := by
  rw [Bool.eq_false_iff, ne_eq, anyHeld_iff]
  rintro ⟨j, hj, hh⟩
  rw [Nat.zero_add] at hj
  have hh : (keyAt (stepSample raw s).1 j).isHeld = true := hh
  rw [keyAt_stepSample raw s j hlen] at hh
  split at hh
  · have hu : (sampleStep raw s).1.st = .up := (step_wentUp _ _ _ _ _ hm).1
    simp [Key.isHeld, hu] at hh
  · next hne => simp [hlast j (Ne.symm hne) hj] at hh

/-- The sample closes the chord (R17). -/
theorem takeSample_closes (hc : s.chords.chord = some c) (hp : c.press.getLsbD s.ksu.scanPos = true) :
    takeSample raw s = closeChord c (stepSample raw s).1 := by
  have e : keyWentUp s.ksu.scanPos (stepSample raw s).1 = closeChord c (stepSample raw s).1 := by
    simp [keyWentUp, hc, hp, none_held_after raw s c hlen hm hlast]
  rw [takeSample_eq, hm, reportMove, e, lightTouch_none _ _ _ (.inl (closeChord_no_chord c _))]

end Release

/-- The stroke formed after the sampled key's step is the one its marks and chord tell before it. -/
theorem strokeOf_stepSample (raw : Nat) (s : State) (c : Chord) :
    strokeOf c (stepSample raw s).1 =
      { seq := s.chords.strokes + 1, time := c.start, press := c.press, shadow := touchedFrom 0 s.ksu.keys &&& ~~~c.press
        cls := s.cls.effective, held := c.held, stuckExcluded := c.stuckExcluded } := by
  have ht : touchedFrom 0 (stepSample raw s).1.ksu.keys = touchedFrom 0 s.ksu.keys := by
    refine touchedFrom_set 0 _ _ _ fun x hx => ?_
    have : keyAt s s.ksu.scanPos = x := by simp [keyAt, hx]
    rw [← this]
    exact (step_keeps _ _ _ _ _).2.2
  simp [strokeOf, ht]

/-- Settles O13: the sample closes the chord, at the counter's top by abandoning it and below by a stroke. -/
theorem lastReleaseFormsTheStroke : Obligations.LastReleaseFormsTheStroke := by
  intro raw s c hr h23 hpos hc hp hm hlast
  have hlen : s.ksu.scanPos < s.ksu.keys.length := by omega
  have hx := exec_keySample raw s hr
  rw [takeSample_closes raw.toNat s c hlen hm hlast hc hp] at hx
  have hc' : (stepSample raw.toNat s).1.chords.chord ≠ none := by simp [hc]
  constructor
  · intro htop
    rw [closeChord_top _ _ (by simpa using htop)] at hx
    refine ⟨_, hx, by simp, by simp, by simp, fun j hj => ?_, ?_, fun j => ?_⟩ <;> rw [keyAt_abandonChord _ _ hc']
    · rw [keyAt_stepSample _ _ _ hlen, if_neg hj.symm]
    · obtain ⟨hu, hi⟩ : (sampleStep raw.toNat s).1.st = .up ∧ (sampleStep raw.toNat s).1.ignore = false :=
        step_wentUp _ _ _ _ _ hm
      simp [keyAt_stepSample_self _ _ hlen, Key.isActive, Key.isHeld, hu, hi]
  · intro hlt
    have hpress : c.press ≠ 0 := by
      intro h0
      simp [h0] at hp
    obtain ⟨h1, h2, h3⟩ := closeChord_stroke_parts c (stepSample raw.toNat s).1 (by simpa using hlt) hpress
    rw [strokeOf_stepSample] at h2 h3
    refine ⟨_, _, hx, rfl, by simpa using h1, by simpa using h2, fun i b hj hf hb hn => ?_, fun hj => ?_⟩
    · rw [h3, append_joins _ _ i b (by simpa using hj) (by simpa using hf) hb (by simpa using hn)]
      simp
    · rw [h3]
      exact append_suspended _ (setStrokes _ (stepSample raw.toNat s).1) (by simpa using hj)

/-! ### The hold timer -/

/-- The part when the hold timer has expired and the chord is about to close: held keys STUCK, KEY_STUCK posted (R9, R18). -/
def stuckState (c : Chord) (s : State) : State :=
  post .reporter .keyStuck (setChord (some { c with press := notHeld c.press 0 s.ksu.keys, held := true, stuckExcluded := true })
    (mapKeys (stickKey c.press) s))

theorem exec_holdTimerExpiry (s : State) (c : Chord) (e : Nat) (hc : s.chords.chord = some c) (he : c.hold = some e)
    (hn : e ≤ s.now) : exec .holdTimerExpiry s =
      .next (closeChord { c with press := notHeld c.press 0 s.ksu.keys, held := true, stuckExcluded := true } (stuckState c s)) := by
  show Host.Outcome.next (holdExpiry s) = _
  have hd : Timer.due c.hold s.now = true := by simp [Timer.due, he, hn]
  simp only [holdExpiry, hc, hd, if_true]
  rfl

theorem keyAt_stuckState (c : Chord) (s : State) (j : Nat) : keyAt (stuckState c s) j = stickKey c.press j (keyAt s j) := by
  rw [← keyAt_stuck c.press s j]
  exact keyAt_of_ksu (by simp [stuckState]) j

/-- What becomes of a key when the hold timer expires (R9). -/
theorem stickKey_parts (press : KeySet) (j : Nat) (k : Key) :
    (stickKey press j k).st = (if press.getLsbD j ∧ k.isHeld = true then .stuck else k.st) ∧
      (stickKey press j k).ignore = k.ignore ∧
      (press.getLsbD j = true → k.isHeld = true → (stickKey press j k).count = 0) := by
  unfold stickKey
  split
  · next h =>
    rw [Bool.and_eq_true] at h
    exact ⟨by rw [if_pos h], rfl, fun _ _ => rfl⟩
  · next h =>
    rw [Bool.and_eq_true] at h
    exact ⟨by rw [if_neg h], rfl, fun hp hk => absurd ⟨hp, hk⟩ h⟩

/-- Settles O14: the keys by `stickKey`, the chord by the cases of its close. -/
theorem holdExpiryMakesKeysStuck : Obligations.HoldExpiryMakesKeysStuck := by
  intro s c e hc he hn
  refine ⟨_, exec_holdTimerExpiry s c e hc he hn, ?_⟩
  generalize hc1 : { c with press := notHeld c.press 0 s.ksu.keys, held := true, stuckExcluded := true } = c1
  have hmarks := closeChord_marksOnly c1 (stuckState c s)
  have hopen : (stuckState c s).chords.chord ≠ none := by simp [stuckState]
  have hstrokes : (stuckState c s).chords.strokes = s.chords.strokes := by simp [stuckState]
  have hpress : c1.press = notHeld c.press 0 s.ksu.keys := by rw [← hc1]
  have htop : 4294967295 ≤ s.chords.strokes → closeChord c1 (stuckState c s) = abandonChord (stuckState c s) :=
    fun h => closeChord_top _ _ (hstrokes ▸ h)
  have hst : ∀ j, (keyAt (closeChord c1 (stuckState c s)) j).st = (stickKey c.press j (keyAt s j)).st :=
    fun j => by rw [hmarks.st, keyAt_stuckState]
  refine ⟨fun j => ?_, fun j hp hh => ?_, ?_, closeChord_no_chord _ _, closeChord_touched _ _ hopen, fun h0 => ?_, fun h => ?_,
    fun h0 h => ?_, ?_, ?_, ?_⟩
  · rw [hst, (stickKey_parts _ _ _).1]
  · rw [hmarks.count, keyAt_stuckState]
    exact (stickKey_parts _ _ _).2.2 hp hh
  · exact (closeChord_flags c1 (stuckState c s)).holds .reporter .keyStuck (by simp [stuckState, post, State.link, State.setLink])
  · rcases closeChord_cases c1 (stuckState c s) with ⟨_, e⟩ | ⟨_, _, e⟩ | ⟨_, hne, _⟩
    · rw [e]
      simp [stuckState]
    · rw [e]
      simp [stuckState, clearChord]
    · exact absurd (hpress.trans h0) hne
  · rw [htop h]
    refine ⟨by simp [stuckState], by simp [stuckState], by simp [stuckState], fun j => ?_⟩
    rw [keyAt_abandonChord _ _ hopen, keyAt_stuckState, (stickKey_parts _ _ _).2.1]
    rfl
  · obtain ⟨h1, h2, -⟩ := closeChord_stroke_parts c1 (stuckState c s) (hstrokes ▸ h) (hpress ▸ h0)
    refine ⟨by rw [h1, hstrokes], strokeOf c1 (stuckState c s), by simpa [stuckState] using h2, hpress, ?_⟩
    subst hc1
    exact ⟨rfl, rfl, by simp [strokeOf, stuckState], rfl⟩
  · exact fun h => ((closeChord_session c1 (stuckState c s)).eq (by simpa [stuckState] using h)).trans (by simp [stuckState])
  · exact ⟨by simp [stuckState], by simp [stuckState], by simp [stuckState]⟩
  · simp [stuckState]

end Sys2Proof.Machine

/-! What a change of session state asks of the journal and the Translator: a block closed with its entry, CLOSING ended by a fault, and the
lookahead flushed. -/

namespace Sys2Proof.Machine

/-! ### A block closed with the entry asked for -/

/-- A FILLING block found stays the one found when it is replaced. -/
theorem findFilling_set (q : Quad Buffer) (i : Fin 4) (b b' : Block) (h : findFilling q = some (i, b)) :
    findFilling (q.set i (.filling b')) = some (i, b') := by
  unfold findFilling at h ⊢
  have hi : (q.get i).fillingBlock = some b := by
    obtain ⟨a, -, ha⟩ := List.exists_of_findSome?_eq_some h
    obtain ⟨x, hx, hp⟩ := Option.map_eq_some_iff.1 ha
    cases hp
    exact hx
  generalize allFeeds = l at h ⊢
  induction l with
  | nil => simp at h
  | cons a l ih =>
    by_cases hai : i = a
    · subst hai
      simp [Buffer.fillingBlock]
    · cases hx : (q.get a).fillingBlock with
      | none =>
        simp only [List.findSome?_cons, hx, Option.map_none] at h
        simp only [List.findSome?_cons, quad_get_set_ne q i a _ hai, hx, Option.map_none]
        exact ih h
      | some x =>
        simp only [List.findSome?_cons, hx, Option.map_some, Option.some.injEq, Prod.mk.injEq] at h
        exact absurd h.1.symm hai

/-- Under the conditions of `EntryJoins` the entry joins the FILLING block, and the block closes with it (R31, R33). -/
theorem askClose_append_closes (e : Entry) (r : CloseReason) (s : State) : EntryCloses e r s (askClose r (append e s)) := by
  intro i b hc hf hb hn
  rw [append_with_room e s i b hc hf hb hn]
  simp [askClose, hc, JCond.isFaulted, closeFilling, findFilling_set _ _ _ _ hf]

/-! ### CLOSING ended by a fault -/

/-- The session is as it was, or the journal is FAULTED. -/
def HeldOrFaulted (s t : State) : Prop := t.session = s.session ∨ t.journal.cond.isFaulted = true

theorem enterFault_faulted (c : FaultCause) (s : State) : (enterFault c s).journal.cond.isFaulted = true := by
  cases h : s.journal.cond.isFaulted with
  | true => simp [enterFault, h]
  | false =>
    rw [(enterFault_journal c s h).1]
    rfl

theorem countMissed_cond (e : Entry) (s : State) : (countMissed e s).journal.cond = s.journal.cond := by
  unfold countMissed
  split <;> rfl

theorem closeFilling_cond (r : CloseReason) (s : State) : (closeFilling r s).journal.cond = s.journal.cond := by
  unfold closeFilling
  split <;> rfl

theorem askClose_cond (r : CloseReason) (s : State) : (askClose r s).journal.cond = s.journal.cond := by
  unfold askClose
  split
  · rfl
  · exact closeFilling_cond r s

/-- A FAULTED journal counts the entry and stays FAULTED (R42). -/
theorem append_of_faulted (e : Entry) (s : State) (h : s.journal.cond.isFaulted = true) :
    (append e s).journal.cond.isFaulted = true := by
  cases hc : s.journal.cond with
  | faulted c =>
    simp only [append, hc]
    rw [countMissed_cond]
    exact h
  | normal => simp [hc, JCond.isFaulted] at h
  | suspended => simp [hc, JCond.isFaulted] at h

theorem putEntry_heldOrFaulted (e : Entry) (s : State) : HeldOrFaulted s (putEntry e s) := by
  unfold putEntry
  split
  · exact .inl rfl
  · dsimp only
    split
    · left
      split <;> simp
    · exact .inr (enterFault_faulted _ _)

/-- The entry of a block just opened, after the RESTART entry that may have faulted the journal. -/
theorem putOrCount_heldOrFaulted (e : Entry) (s t : State) (h : HeldOrFaulted s t) : HeldOrFaulted s (putOrCount e t) := by
  unfold putOrCount
  split
  · next hn =>
    have hs : t.session = s.session := h.resolve_right (by simp [hn, JCond.isFaulted])
    exact (putEntry_heldOrFaulted e t).imp (fun e => e.trans hs) id
  · exact h.imp (fun e => by simpa using e) (fun hf => by rwa [countMissed_cond])

/-- An append that changes the session has made the journal FAULTED (R38, R65). -/
theorem append_heldOrFaulted (e : Entry) (s : State) : HeldOrFaulted s (append e s) := by
  unfold append
  repeat' split
  · exact .inl (by simp)
  · exact .inl (by simp)
  · exact putEntry_heldOrFaulted e s
  · exact .inl (by simp)
  · refine .inr ?_
    rw [countMissed_cond]
    exact enterFault_faulted _ s
  · refine putOrCount_heldOrFaulted e s _ ?_
    unfold putRestart
    split
    · exact putEntry_heldOrFaulted _ _
    · exact .inl (by simp)

/-- Every buffer FREE or FILLING, buffer by buffer. -/
theorem buffersSettled_iff (q : Quad Buffer) : buffersSettled q = true ↔ ∀ j, (q.get j).code ≤ 1 := by
  simp [buffersSettled, Quad.toList, Fin.forall_fin_succ, Quad.get]

/-! ### The Translator's lookahead flushed -/

/-- The unit formed takes a stroke at least. -/
theorem formFront_shorter (d : Dict) (ks : List TStroke) (h : ks ≠ []) : (formFront d ks).2.length < ks.length := by
  have hpos : 0 < ks.length := List.length_pos_of_ne_nil h
  have hfront : ∀ n m e, longestFront d ks n = some (m, e) → 0 < m := by
    intro n
    induction n with
    | zero => simp [longestFront]
    | succ n ih =>
      intro m e hm
      simp only [longestFront] at hm
      split at hm
      · cases hm
        omega
      · exact ih m e hm
  unfold formFront
  split
  · next n e hn =>
    have := hfront _ _ _ hn
    simp only [List.length_drop]
    omega
  · simp only [List.length_drop]
    omega

/-- A flush pass with enough steps for its strokes leaves none waiting (R98). -/
theorem pass_flush_empties (keep : Bool) (n : Nat) (s : State) (h : s.trans.lookahead.length ≤ n) :
    (pass true keep n s).trans.lookahead = [] := by
  induction n generalizing s with
  | zero => exact List.length_eq_zero_iff.1 (Nat.le_zero.1 h)
  | succ n ih =>
    by_cases hne : s.trans.lookahead = []
    · simp [pass, hne]
    · rw [pass_goes true keep n s _ _ hne (.inl rfl) rfl]
      refine ih _ ?_
      rw [placeUnit_lookahead]
      exact Nat.le_of_lt_succ (Nat.lt_of_lt_of_le (formFront_shorter s.dict _ hne) h)

theorem flushPass_empties (s : State) : (flushPass s).trans.lookahead = [] := pass_flush_empties _ _ s (Nat.le_refl _)

/-- Settlement notices leave an empty history empty. -/
theorem takeSettled_empty (ns : List Nat) (s : State) (h : s.trans.history = []) :
    (takeSettled ns s).trans = s.trans := by
  have hp : ns.foldl (fun h n => prune n h) ([] : List TUnit) = [] := by
    induction ns with
    | nil => rfl
    | cons n ns ih => simpa [prune] using ih
  simp only [takeSettled, setTrans_trans, h, hp]
  rw [← h]

/-- Where LIVE is left, or RECESS for CLOSING, nothing waits for translation, the history is empty and the resolution timer stopped; at a
close the carry state is clear (R115). -/
theorem leaveLive_trans (c : Bool) (s : State) :
    (leaveLive c s).trans.lookahead = [] ∧ (leaveLive c s).trans.history = [] ∧ (leaveLive c s).trans.timer = none ∧
      (c = true → (leaveLive c s).trans.carry = Carry.clear) := by
  have e : (leaveLive c s).trans = { (flushPass s).trans with
      timer := none, history := [], carry := if c then Carry.clear else (flushPass s).trans.carry } := by
    simp only [leaveLive, flushComplete]
    rw [takeSettled_empty _ _ (by simp), (settleAll_keeps _).2.2.2.2.2.2.1]
    rfl
  rw [e]
  exact ⟨flushPass_empties s, rfl, rfl, fun h => if_pos h⟩

/-- No line stays open (R130). -/
theorem leaveLive_openLine (c : Bool) (s : State) : (leaveLive c s).lines.openLine = none := by
  simp only [leaveLive, flushComplete, takeSettled, setTrans_lines, settleAll, settleLines, setRecords_lines]
  rw [closeOpen_numbers]

theorem chooseAll_openLine (s : State) : (chooseAll s).lines.openLine = s.lines.openLine := by
  rw [(chooseAll_fed s).2]

/-- The notice to both links is latched on both (R210). -/
theorem postBoth_holds (n : Notice) (s : State) :
    latchHolds n (postBoth n s).reporter.attn = true ∧ latchHolds n (postBoth n s).bench.attn = true := by
  simp [postBoth, post, State.setLink, State.link]

theorem discardGroup_dict (s : State) : (discardGroup s).dict = { s.dict with group := none } := by
  unfold discardGroup
  split
  · next h => rw [← h]
  · simp

/-- The loss of an open group is told (R87). -/
theorem discardGroup_told (s : State) (h : s.dict.group ≠ none) : latchHolds .groupDiscarded (discardGroup s).reporter.attn = true := by
  unfold discardGroup
  split
  · next hn => exact absurd hn h
  · simp [post, State.setLink, State.link]

end Sys2Proof.Machine

/-! Recess, Resume, Close Session and Reset Part (O50). -/

namespace Sys2Proof.Machine

/-! ### The four requests, carried out or refused on the state after the frame's arrival -/

section Requests

variable (tag : Byte) (s : State) (ht : Takes .reporter s)
include ht

theorem exec_recess : exec (.recess .reporter tag (.fields ())) s =
    .next (deliver .reporter Req.recess.code tag (recess () (touchPresence .reporter s))) :=
  congrArg _ (serve_takes _ _ _ _ _ s ht rfl)

theorem exec_resume : exec (.resume .reporter tag (.fields ())) s =
    .next (deliver .reporter Req.resume.code tag (resume () (touchPresence .reporter s))) :=
  congrArg _ (serve_takes _ _ _ _ _ s ht rfl)

theorem exec_closeSession : exec (.closeSession .reporter tag (.fields ())) s =
    .next (deliver .reporter Req.closeSession.code tag (closeSession () (touchPresence .reporter s))) :=
  congrArg _ (serve_takes _ _ _ _ _ s ht rfl)

theorem exec_resetPart : exec (.resetPart .reporter tag (.fields ())) s =
    .next (deliver .reporter Req.resetPart.code tag (resetPart () (touchPresence .reporter s))) :=
  congrArg _ (serve_takes _ _ _ _ _ s ht rfl)

end Requests

theorem answered_flags (l : Link) (r : Req) (tag : Byte) (st : Status) (p : List Byte) (s : State) :
    FlagsKept s (answered l r tag st p s) := setLink_flags _ _ _ rfl

theorem keyAt_answered (l : Link) (r : Req) (tag : Byte) (st : Status) (p : List Byte) (s : State) (i : Nat) :
    keyAt (answered l r tag st p s) i = keyAt s i := keyAt_of_ksu (by simp) i

/-- A notice posted to both links is latched on both for as long as no latch set is emptied. -/
theorem FlagsKept.told {n : Notice} {x t : State} (h : FlagsKept (postBoth n x) t) :
    latchHolds n t.reporter.attn = true ∧ latchHolds n t.bench.attn = true :=
  ⟨h.holds .reporter n (postBoth_holds n x).1, h.holds .bench n (postBoth_holds n x).2⟩

/-- What an entry's block is closed with depends on the journal and the session clock before it, and on the journal after it. -/
theorem EntryCloses.congr {e : Entry} {r : CloseReason} {s s' t t' : State} (h : EntryCloses e r s t) (hj : s'.journal = s.journal)
    (hs : s'.session.clock = s.session.clock) (ht : t'.journal = t.journal) : EntryCloses e r s' t' := by
  unfold EntryCloses at h ⊢
  rw [hj, hs, ht]
  exact h

theorem EntryJoins.congr {e : Entry} {s s' t t' : State} (h : EntryJoins e s t) (hj : s'.journal = s.journal)
    (ht : t'.journal = t.journal) : EntryJoins e s' t' := by
  unfold EntryJoins at h ⊢
  rw [hj, ht]
  exact h

/-! ### What Recess and Close Session have in common -/

/-- The chord is abandoned, the Translator flushes, and the feeds choose (R19, R115, R163). -/
def departed (closing : Bool) (s : State) : State := chooseAll (leaveLive closing (abandonChord s))

/-- What `departed` leaves alone, and the chord. -/
@[simp] theorem departed_keeps (c : Bool) (s : State) :
    (departed c s).chords = { s.chords with chord := none } ∧ (departed c s).session = s.session ∧ (departed c s).journal = s.journal ∧
    (departed c s).memory = s.memory ∧ (departed c s).dict = s.dict ∧ (departed c s).cls = s.cls ∧ (departed c s).pins = s.pins ∧
    (departed c s).now = s.now ∧ (departed c s).pending = s.pending := by
  simp [departed]

/-- Nothing waits for translation, and no line is open. -/
theorem departed_flushed (c : Bool) (s : State) :
    (departed c s).trans.lookahead = [] ∧ (departed c s).trans.history = [] ∧ (departed c s).trans.timer = none ∧
      (c = true → (departed c s).trans.carry = Carry.clear) ∧ (departed c s).lines.openLine = none := by
  have ht : (departed c s).trans = (leaveLive c (abandonChord s)).trans := by simp [departed]
  obtain ⟨h1, h2, h3, h4⟩ := leaveLive_trans c (abandonChord s)
  rw [ht]
  exact ⟨h1, h2, h3, h4, by rw [departed, chooseAll_openLine, leaveLive_openLine]⟩

/-- With no chord open the Key Sensing Unit is as it was; the keys of an abandoned chord are marked (R19). -/
theorem departed_keys (c : Bool) (s : State) : (s.chords.chord = none → (departed c s).ksu = s.ksu) ∧
    (s.chords.chord ≠ none → ∀ i, keyAt (departed c s) i =
      { keyAt s i with ignore := (keyAt s i).ignore || (keyAt s i).isActive, touched := false }) := by
  have hk : (departed c s).ksu = (abandonChord s).ksu := by simp [departed]
  refine ⟨fun h => ?_, fun h i => ?_⟩
  · rw [hk, abandonChord_none s h]
  · rw [keyAt_of_ksu hk, keyAt_abandonChord s i h]

theorem departed_flags (c : Bool) (s : State) : FlagsKept s (departed c s) :=
  .after (chooseAll_flags _) (.after (leaveLive_flags _ _) (abandonChord_flags _))

/-! ### Recess -/

/-- The session in RECESS, one recess more counted (R62). -/
def recessSession (s : State) : State :=
  { s with session := { s.session with st := .recess, recesses := succHold max24 s.session.recesses } }

/-- The entry asked for, the block closed with it (R62, R67). -/
def recessEntered (s : State) : State :=
  askClose .recess (append (sessionEntry .recess (recessSession s)) (recessSession s))

theorem recessed_eq (s : State) : recessed s = departed false (postBoth .sessionState (recessEntered s)) := rfl

/-- What `recessEntered` leaves alone, and the session. -/
@[simp] theorem recessEntered_keeps (s : State) :
    (recessEntered s).ksu = s.ksu ∧ (recessEntered s).chords = s.chords ∧
    (recessEntered s).session = { s.session with st := .recess, recesses := succHold max24 s.session.recesses } ∧
    (recessEntered s).memory = s.memory ∧ (recessEntered s).dict = s.dict ∧ (recessEntered s).cls = s.cls ∧
    (recessEntered s).pins = s.pins ∧ (recessEntered s).now = s.now ∧ (recessEntered s).pending = s.pending := by
  simp [recessEntered, append_session_eq, recessSession]

theorem recessEntered_closes (s : State) : EntryCloses (sessionEntry .recess (recessSession s)) .recess s (recessEntered s) :=
  (askClose_append_closes _ _ (recessSession s)).congr rfl rfl rfl

/-! ### Resume -/

/-- What a resume makes of each part (R10, R63). -/
theorem resumed_parts (s : State) (h : s.session.st = .recess) :
    (resumed s).session = { s.session with st := .live } ∧ (resumed s).chords = s.chords ∧ (resumed s).trans = s.trans ∧
      (resumed s).lines = s.lines ∧ (resumed s).journal = (append (sessionEntry .resume s) s).journal ∧
      (resumed s).dict = s.dict ∧ (resumed s).cls = s.cls ∧ (resumed s).memory = s.memory ∧ (resumed s).feeds = s.feeds ∧
      (resumed s).marks = s.marks ∧ OutsideKept s (resumed s) := by
  simp [resumed, append_session_eq, h, OutsideKept]

theorem resumed_ignore (s : State) (i : Nat) :
    (keyAt (resumed s) i).ignore = ((keyAt s i).ignore || (keyAt s i).isActive) := by
  rw [resumed, keyAt_ignoreActive, keyAt_of_ksu (s := s) (by simp)]

theorem resumed_flags (s : State) :
    FlagsKept (postBoth .sessionState (setSession .live (append (sessionEntry .resume s) s))) (resumed s) :=
  .of_attn (by simp [resumed]) (by simp [resumed])

/-! ### Close Session -/

/-- CLOSING, with the entry asked for and the block closed with it (R64, R67). -/
def closeEntered (s : State) : State :=
  askClose .close (append (sessionEntry .close (setSession .closing s)) (setSession .closing s))

/-- The session closed but for the report that ends CLOSING. -/
def closeDeparted (s : State) : State := departed true (discardGroup (postBoth .sessionState (closeEntered s)))

theorem closed_eq (s : State) : closed s = closingReport (closeDeparted s) := rfl

/-- What `closeEntered` leaves alone. -/
@[simp] theorem closeEntered_keeps (s : State) :
    (closeEntered s).ksu = s.ksu ∧ (closeEntered s).chords = s.chords ∧ (closeEntered s).memory = s.memory ∧
    (closeEntered s).dict = s.dict ∧ (closeEntered s).cls = s.cls ∧ (closeEntered s).pins = s.pins ∧
    (closeEntered s).now = s.now ∧ (closeEntered s).pending = s.pending := by
  simp [closeEntered]

theorem closeEntered_closes (s : State) :
    EntryCloses (sessionEntry .close (setSession .closing s)) .close s (closeEntered s) :=
  (askClose_append_closes _ _ (setSession .closing s)).congr rfl rfl rfl

/-- The session is CLOSING still, or a fault has brought it to STANDBY (R40, R65). -/
theorem closeEntered_session (s : State) :
    (closeEntered s).session = { s.session with st := .closing } ∨
      ((closeEntered s).session = { s.session with st := .standby } ∧ (closeEntered s).journal.cond.isFaulted = true) := by
  have hs : (closeEntered s).session = (append (sessionEntry .close (setSession .closing s)) (setSession .closing s)).session := by
    simp [closeEntered]
  have hc : (closeEntered s).journal.cond =
      (append (sessionEntry .close (setSession .closing s)) (setSession .closing s)).journal.cond := askClose_cond _ _
  rw [hs, hc]
  rcases append_heldOrFaulted (sessionEntry .close (setSession .closing s)) (setSession .closing s) with h | h
  · exact .inl h
  · rcases append_session (sessionEntry .close (setSession .closing s)) (setSession .closing s) with h' | ⟨-, h'⟩
    · exact .inl h'
    · exact .inr ⟨h', h⟩

/-- A journal FAULTED before a Close Session is FAULTED after it. -/
theorem closeEntered_faulted (s : State) (h : s.journal.cond.isFaulted = true) : (closeEntered s).journal.cond.isFaulted = true := by
  rw [closeEntered, askClose_cond]
  exact append_of_faulted _ (setSession .closing s) h

theorem closed_journal (s : State) : (closed s).journal = (closeEntered s).journal := by
  simp [closed_eq, closeDeparted]

/-- CLOSING lasts while a buffer is QUEUED or WRITING and the journal is not FAULTED (R64). -/
theorem closed_closing (s : State) (hb : ∃ j, 2 ≤ ((closed s).journal.buffers.get j).code)
    (hf : (closed s).journal.cond.isFaulted = false) : (closed s).session = { s.session with st := .closing } := by
  rw [closed_journal] at hb hf
  have hset : ¬buffersSettled (closeEntered s).journal.buffers = true := by
    rw [buffersSettled_iff]
    intro h
    obtain ⟨j, hj⟩ := hb
    have := h j
    omega
  rcases closeEntered_session s with h | ⟨-, h⟩
  · simp [closed_eq, closeDeparted, closingReport, hf, hset, h]
  · rw [h] at hf
    exact absurd hf (by simp)

/-- The session reaches STANDBY where every buffer is FREE or FILLING, or the journal is FAULTED (R40, R65). -/
theorem closed_standby (s : State) (h : (∀ j, ((closed s).journal.buffers.get j).code ≤ 1) ∨ (closed s).journal.cond.isFaulted = true) :
    (closed s).session = { s.session with st := .standby } := by
  rw [closed_journal, ← buffersSettled_iff, or_comm] at h
  rcases closeEntered_session s with hs | ⟨hs, -⟩
  · simp [closed_eq, closeDeparted, closingReport, hs, h, toStandby]
  · simp [closed_eq, closeDeparted, closingReport, hs]

/-- What a close makes of the parts that the report does not touch (R19, R64, R87, R115). -/
theorem closed_parts (s : State) :
    (closed s).chords = { s.chords with chord := none } ∧ (closed s).ksu = (closeDeparted s).ksu ∧
      (closed s).trans.lookahead = [] ∧ (closed s).trans.history = [] ∧ (closed s).trans.carry = Carry.clear ∧
      (closed s).lines.openLine = none ∧ (closed s).dict = { s.dict with group := none } ∧ (closed s).cls = s.cls ∧
      (closed s).memory = s.memory ∧ OutsideKept s (closed s) := by
  obtain ⟨h1, h2, -, h4, h5⟩ := departed_flushed true (discardGroup (postBoth .sessionState (closeEntered s)))
  have ht : (closed s).trans = (closeDeparted s).trans := by simp [closed_eq]
  have hl : (closed s).lines = (closeDeparted s).lines := by simp [closed_eq]
  rw [ht, hl]
  refine ⟨closed_chords s, by simp [closed_eq], h1, h2, h4 rfl, h5, ?_⟩
  simp [closed_eq, closeDeparted, discardGroup_dict, OutsideKept]

theorem closeDeparted_keys (s : State) : (s.chords.chord = none → (closeDeparted s).ksu = s.ksu) ∧
    (s.chords.chord ≠ none → ∀ i, keyAt (closeDeparted s) i =
      { keyAt s i with ignore := (keyAt s i).ignore || (keyAt s i).isActive, touched := false }) := by
  have hk : (discardGroup (postBoth .sessionState (closeEntered s))).ksu = s.ksu := by simp
  have hc : (discardGroup (postBoth .sessionState (closeEntered s))).chords = s.chords := by simp
  obtain ⟨h1, h2⟩ := departed_keys true (discardGroup (postBoth .sessionState (closeEntered s)))
  rw [hc, hk] at h1
  refine ⟨h1, fun h i => ?_⟩
  rw [closeDeparted, h2 (hc ▸ h), keyAt_of_ksu hk]

/-- No flag posted up to the discard of the group is lost at a close. -/
theorem closed_flags (s : State) : FlagsKept (discardGroup (postBoth .sessionState (closeEntered s))) (closed s) :=
  .after (closingReport_flags _) (departed_flags _ _)

/-! ### The obligation's parts -/

/-- A Recess taken in LIVE. -/
theorem recess_taken (tag : Byte) (s : State) (ht : Takes .reporter s) (hl : s.session.st = .live) :
    exec (.recess .reporter tag (.fields ())) s =
      .next (answered .reporter .recess tag .ok [] (recessed (touchPresence .reporter s))) := by
  rw [exec_recess tag s ht]
  simp [recess, hl]

/-- A Resume taken in RECESS. -/
theorem resume_taken (tag : Byte) (s : State) (ht : Takes .reporter s) (hr : s.session.st = .recess) (hz : s.ksu.zeroing = none) :
    exec (.resume .reporter tag (.fields ())) s =
      .next (answered .reporter .resume tag .ok [] (resumed (touchPresence .reporter s))) := by
  rw [exec_resume tag s ht]
  simp [resume, hr, zeroingRuns, hz]

/-- A Close Session taken in LIVE, or in RECESS with no zeroing. -/
theorem closeSession_taken (tag : Byte) (s : State) (ht : Takes .reporter s)
    (h : s.session.st = .live ∨ (s.session.st = .recess ∧ s.ksu.zeroing = none)) :
    exec (.closeSession .reporter tag (.fields ())) s =
      .next (answered .reporter .closeSession tag .ok [] (closed (touchPresence .reporter s))) := by
  rw [exec_closeSession tag s ht]
  rcases h with hl | ⟨hr, hz⟩
  · simp [closeSession, hl]
  · simp [closeSession, hr, zeroingRuns, hz]

/-- Settles O50: what each request makes of the parts where it is taken, and the refusals of the table of R59. -/
theorem sessionRequestsMoveTheState : Obligations.SessionRequestsMoveTheState := by
  intro tag s ht
  have hk : (touchPresence .reporter s).ksu = s.ksu := by simp
  have hch : (touchPresence .reporter s).chords = s.chords := by simp
  have hse : (touchPresence .reporter s).session = s.session := by simp
  have hj : (touchPresence .reporter s).journal = s.journal := by simp
  refine ⟨fun hl => ⟨_, recess_taken tag s ht hl, ?_⟩, fun hr hz => ⟨_, resume_taken tag s ht hr hz, ?_⟩,
    fun h => ⟨_, closeSession_taken tag s ht h, ?_⟩, ?_, fun hr hz => ?_, fun hr hz => ?_, fun hr => ?_, fun hl => ?_, fun hc => ?_,
    fun h => ?_, fun h => ?_⟩
  · obtain ⟨h1, h2, h3, -, h5⟩ := departed_flushed false (postBoth .sessionState (recessEntered (touchPresence .reporter s)))
    obtain ⟨k1, k2⟩ := departed_keys false (postBoth .sessionState (recessEntered (touchPresence .reporter s)))
    obtain ⟨f1, f2⟩ := ((departed_flags false _).trans (answered_flags .reporter .recess tag .ok [] _)).told (n := .sessionState)
      (x := recessEntered (touchPresence .reporter s))
    simp only [answered_keeps, recessed_eq, departed_keeps, postBoth_keeps, recessEntered_keeps, touchPresence_keeps] at k1 k2 ⊢
    refine ⟨rfl, trivial, k1, fun h i => ?_, h1, h2, h3, h5, f1, f2, rfl, ?_, ?_⟩
    · rw [keyAt_answered, k2 h, keyAt_of_ksu (s := s) (by simp)]
    · have e := recessEntered_closes (touchPresence .reporter s)
      simp only [sessionEntry, recessSession, touchPresence_keeps] at e
      exact e.congr hj.symm (by rw [hse]) (by simp)
    · simp [OutsideKept]
  · obtain ⟨h1, h2, h3, h4, h5, h6⟩ := resumed_parts (touchPresence .reporter s) (by rw [hse]; exact hr)
    obtain ⟨f1, f2⟩ := ((resumed_flags _).trans (answered_flags .reporter .resume tag .ok [] _)).told
    simp only [answered_keeps]
    simp only [touchPresence_keeps] at h1 h2 h3 h4 h6
    obtain ⟨hd, hc, hm, hf, hmk, -⟩ := h6
    refine ⟨h1, h2, h3, h4, fun i => ?_, f1, f2, rfl, ?_, ?_, hd, hc, hm, hf, hmk⟩
    · rw [keyAt_answered, resumed_ignore, keyAt_of_ksu hk]
    · have e := append_joins (sessionEntry .resume (touchPresence .reporter s)) (touchPresence .reporter s)
      simp only [sessionEntry, touchPresence_keeps] at e
      exact e.congr hj.symm (by simpa [sessionEntry] using h5)
    · simp [OutsideKept, resumed]
  · obtain ⟨h1, h2, h3, h4, h5, h6, h7, h8, h9, h10⟩ := closed_parts (touchPresence .reporter s)
    obtain ⟨k1, k2⟩ := closeDeparted_keys (touchPresence .reporter s)
    have ha := (closed_flags (touchPresence .reporter s)).trans (answered_flags .reporter .closeSession tag .ok [] _)
    obtain ⟨f1, f2⟩ := ((discardGroup_flags _).trans ha).told
    have hcl := closed_closing (touchPresence .reporter s)
    have hst := closed_standby (touchPresence .reporter s)
    have hjc := closed_journal (touchPresence .reporter s)
    simp only [touchPresence_keeps] at h1 h7 h8 h9 k1 k2 hcl hst
    simp only [answered_keeps]
    refine ⟨hcl, hst, h1, fun h => h2.trans (k1 h), fun h i => ?_, h3, h4, h5, h6, h7, fun h => ?_, fun h => ?_, f1, f2, rfl, ?_, ?_, h8, h9⟩
    · rw [keyAt_answered, keyAt_of_ksu h2, k2 h, keyAt_of_ksu hk]
    · exact ha.holds .reporter _ (discardGroup_told _ (by simpa using h))
    · have hf := closeEntered_faulted (touchPresence .reporter s) (by rwa [hj])
      rw [hst (.inr (by rwa [hjc]))]
    · have e := closeEntered_closes (touchPresence .reporter s)
      simp only [sessionEntry, setSession, touchPresence_keeps] at e
      exact e.congr hj.symm (by rw [hse]) (by simpa using hjc)
    · simpa [OutsideKept] using h10
  · rw [exec_resetPart tag s ht]
    simp [resetPart]
  · rw [exec_resume tag s ht]
    simp [resume, hr, zeroingRuns, Option.isSome_iff_ne_none.2 hz]
  · rw [exec_closeSession tag s ht]
    simp [closeSession, hr, zeroingRuns, Option.isSome_iff_ne_none.2 hz]
  · rw [exec_recess tag s ht]
    simp [recess, hr]
  · rw [exec_resume tag s ht]
    simp [resume, hl]
  · rw [exec_closeSession tag s ht]
    simp [closeSession, hc]
  · rw [exec_recess tag s ht, exec_resume tag s ht]
    rcases h with h | h <;> simp [recess, resume, h]
  · rw [exec_closeSession tag s ht]
    simp [closeSession, h]

end Sys2Proof.Machine

/-! The attached memory and the slot table stay canonical (O27): most commands leave both as they are; the transfers, recovery and the resets
change them by operations that keep the form. -/

namespace Sys2Proof.Machine

/-- The attached memory and the slot table are as they were. -/
def StoresSame (s t : State) : Prop := t.memory = s.memory ∧ t.journal.slots = s.journal.slots

theorem StoresSame.refl (s : State) : StoresSame s s := ⟨rfl, rfl⟩

theorem StoresSame.of_journal {s t : State} (hm : t.memory = s.memory) (hj : t.journal = s.journal) : StoresSame s t :=
  ⟨hm, by rw [hj]⟩

theorem StoresSame.canonical {s t : State} (h : StoresSame s t) (hs : StoresCanonical s) : StoresCanonical t :=
  ⟨h.1 ▸ hs.1, h.2 ▸ hs.2⟩

/-! ### The slot table after the operations that ask for entries -/

@[simp] theorem append_slots (e : Entry) (s : State) : (append e s).journal.slots = s.journal.slots := (append_store e s).slots

@[simp] theorem closeFilling_slots (r : CloseReason) (s : State) : (closeFilling r s).journal.slots = s.journal.slots :=
  (closeFilling_store r s).slots

@[simp] theorem askClose_slots (r : CloseReason) (s : State) : (askClose r s).journal.slots = s.journal.slots := by
  unfold askClose
  split
  · rfl
  · exact closeFilling_slots r s

@[simp] theorem closeChord_slots (c : Chord) (s : State) : (closeChord c s).journal.slots = s.journal.slots := by
  rcases closeChord_cases c s with h | h | h <;> simp [h]

@[simp] theorem reformClass_slots (n : Nat) (s : State) : (reformClass n s).journal.slots = s.journal.slots := by
  unfold reformClass
  dsimp only
  repeat' split
  all_goals simp

@[simp] theorem takeSbar_slots (s : State) : (takeSbar s).journal.slots = s.journal.slots := by
  unfold takeSbar
  dsimp only
  split <;> simp

/-! ### The commands that leave the stores -/

theorem keyWentUp_stores (i : Nat) (s : State) : StoresSame s (keyWentUp i s) := by
  rcases keyWentUp_cases i s with h | ⟨c, -, h⟩ <;> simp [h, StoresSame]

theorem takeSample_stores (n : Nat) (s : State) : StoresSame s (takeSample n s) := by
  have h : (takeSample n s).journal.slots =
      (reportMove s.ksu.scanPos (stepSample n s).2 (stepSample n s).1).journal.slots := by simp [takeSample]
  refine ⟨by simp, h.trans ?_⟩
  cases (stepSample n s).2 with
  | stayed => simp [reportMove]
  | wentDown => simp [reportMove]
  | wentUp => exact (keyWentUp_stores _ _).2.trans (by simp)

theorem holdExpiry_stores (s : State) : StoresSame s (holdExpiry s) := by
  unfold holdExpiry
  repeat' split
  all_goals simp [StoresSame]

theorem zeroingDone_stores (s : State) : StoresSame s (zeroingDone s) := by
  unfold zeroingDone
  repeat' split
  all_goals simp [StoresSame]

theorem intervalExpiry_stores (s : State) : StoresSame s (intervalExpiry s) := by
  unfold intervalExpiry
  split <;> simp [StoresSame]

theorem startWrite_stores (s : State) : StoresSame s (startWrite s) := by
  unfold startWrite
  repeat' split
  all_goals exact ⟨rfl, rfl⟩

theorem startReporterTransfer_stores (s : State) : StoresSame s (startReporterTransfer s) := by
  unfold startReporterTransfer
  repeat' split
  all_goals exact ⟨rfl, rfl⟩

theorem buildDone_stores (s : State) : StoresSame s (buildDone s) := by
  unfold buildDone
  split <;> simp [StoresSame]

theorem takeNext_stores (s : State) : StoresSame s (takeNext s) := by
  unfold takeNext
  split <;> simp [StoresSame]

theorem resolutionExpired_stores (s : State) : StoresSame s (resolutionExpired s) := by
  unfold resolutionExpired
  split <;> simp [StoresSame]

theorem tiersChanged_stores (s : State) : StoresSame s (tiersChanged s) := by
  unfold tiersChanged
  split <;> simp [StoresSame]

theorem sbarChanged_stores (high : Bool) (s : State) : StoresSame s (sbarChanged high s) := by
  unfold sbarChanged followSbar
  dsimp only
  repeat' split
  all_goals simp [StoresSame]

theorem deglitchExpired_stores (s : State) : StoresSame s (deglitchExpired s) := by
  unfold deglitchExpired
  split <;> simp [StoresSame]

theorem rdyChanged_stores (f : Fin 4) (high : Bool) (s : State) : StoresSame s (rdyChanged f high s) := by
  unfold rdyChanged
  repeat' split
  all_goals simp [StoresSame]

theorem gateChanged_stores (high : Bool) (s : State) : StoresSame s (gateChanged high s) := by
  unfold gateChanged
  dsimp only
  repeat' split
  all_goals simp [StoresSame]

theorem frameDone_stores (f : Fin 4) (s : State) : StoresSame s (frameDone f s) := by
  unfold frameDone
  dsimp only
  repeat' split
  all_goals simp [StoresSame]

theorem idleExpired_stores (f : Fin 4) (s : State) : StoresSame s (idleExpired f s) := by
  unfold idleExpired
  dsimp only
  split <;> simp [StoresSame]

theorem stallExpired_stores (f : Fin 4) (s : State) : StoresSame s (stallExpired f s) := by
  unfold stallExpired
  dsimp only
  repeat' split
  all_goals simp [StoresSame]

theorem presenceExpired_stores (l : Link) (s : State) : StoresSame s (presenceExpired l s) := by
  unfold presenceExpired
  split <;> simp [StoresSame]

theorem frameMalformed_stores (l : Link) (bs : List Byte) (s : State) : StoresSame s (frameMalformed l bs s) := by
  unfold frameMalformed
  repeat' split
  all_goals simp [StoresSame]

theorem frameThrownAway_stores (l : Link) (bs : List Byte) (s : State) : StoresSame s (frameThrownAway l bs s) := by
  unfold frameThrownAway
  repeat' split
  all_goals simp [StoresSame]

theorem frameUnknown_stores (l : Link) (code tag : Byte) (s : State) : StoresSame s (frameUnknown l code tag s) := by
  unfold frameUnknown
  dsimp only
  repeat' split
  all_goals simp [StoresSame]

theorem rstnReleased_stores (s : State) : StoresSame s (rstnReleased s) := by
  unfold rstnReleased
  split <;> exact ⟨rfl, rfl⟩

/-! ### The requests -/

/-- A block's answer leaves the stores. -/
def BlockStill {α : Type} (block : α → State → Reply) : Prop := ∀ a s, StoresSame s (block a s).state

theorem serve_still {α : Type} (l : Link) (tag : Byte) (r : Req) (p : Payload α) {block : α → State → Reply}
    (hb : BlockStill block) (s : State) (h : StoresCanonical s) : StoresCanonical (serve l tag r p block s) :=
  serve_induct StoresCanonical (fun _ _ _ hx => StoresSame.canonical (by simp [StoresSame]) hx) l tag r p block
    (fun a x hx => (hb a x).canonical hx) s h

theorem readAttention_still (l : Link) : BlockStill (readAttention l) := fun a s => by
  simp [readAttention, Reply.state, StoresSame]

theorem readLines_still : BlockStill readLines := fun a s => by
  unfold readLines
  split <;> exact .refl s

theorem setMark_still (l : Link) : BlockStill (setMark l) := fun a s => by
  unfold setMark setMarkOn
  dsimp only
  repeat' split
  all_goals simp [refuse, Reply.state, StoresSame, applyMark]

theorem removeMark_still (l : Link) : BlockStill (removeMark l) := fun a s => by
  unfold removeMark
  repeat' split
  all_goals simp [refuse, Reply.state, StoresSame, applyUnmark]

theorem listMarks_still : BlockStill listMarks := fun a s => by
  unfold listMarks
  split <;> exact .refl s

theorem setConditioning_still : BlockStill setConditioning := fun a s => by
  unfold setConditioning
  repeat' split
  all_goals exact ⟨rfl, rfl⟩

theorem setTiming_still : BlockStill setTiming := fun a s => by
  unfold setTiming
  repeat' split
  all_goals exact ⟨rfl, rfl⟩

theorem zeroKeys_still : BlockStill zeroKeys := fun a s => by
  unfold zeroKeys
  split <;> exact ⟨rfl, rfl⟩

theorem beginLoad_still : BlockStill beginLoad := fun a s => by
  unfold beginLoad
  repeat' split
  all_goals exact ⟨rfl, rfl⟩

theorem loadEntries_still : BlockStill loadEntries := fun a s => by
  unfold loadEntries
  repeat' split
  all_goals exact ⟨rfl, rfl⟩

theorem endLoad_still : BlockStill endLoad := fun a s => by
  unfold endLoad
  repeat' split
  all_goals exact ⟨rfl, rfl⟩

theorem openStaged_still : BlockStill openStaged := fun a s => by
  unfold openStaged
  repeat' split
  all_goals exact ⟨rfl, rfl⟩

theorem stageDefine_still : BlockStill stageDefine := fun a s => by
  unfold stageDefine stageChange
  repeat' split
  all_goals exact ⟨rfl, rfl⟩

theorem stageRemove_still : BlockStill stageRemove := fun a s => by
  unfold stageRemove stageChange
  repeat' split
  all_goals exact ⟨rfl, rfl⟩

theorem commitGroup_still : BlockStill commitGroup := fun a s => by
  unfold commitGroup
  dsimp only
  repeat' split
  all_goals simp [refuse, Reply.state, StoresSame, applyGroup]

theorem abandonGroup_still : BlockStill abandonGroup := fun a s => by
  unfold abandonGroup
  split <;> exact ⟨rfl, rfl⟩

theorem clearJob_still : BlockStill clearJob := fun a s => by
  unfold clearJob
  repeat' split
  all_goals exact ⟨rfl, rfl⟩

theorem lookUp_still : BlockStill lookUp := fun a s => by
  unfold lookUp
  repeat' split
  all_goals exact .refl s

theorem openSession_still : BlockStill openSession := fun a s => by
  unfold openSession
  split <;> simp [refuse, Reply.state, StoresSame, opened, openClass, newSession]

theorem recess_still : BlockStill recess := fun a s => by
  unfold recess
  split <;> simp [refuse, Reply.state, StoresSame, recessed]

theorem resume_still : BlockStill resume := fun a s => by
  unfold resume
  repeat' split
  all_goals simp [refuse, Reply.state, StoresSame, resumed]

theorem closeSession_still : BlockStill closeSession := fun a s => by
  unfold closeSession
  repeat' split
  all_goals simp [refuse, Reply.state, StoresSame, closed]

theorem readBlock_still : BlockStill readBlock := fun a s => by
  unfold readBlock
  repeat' split
  all_goals exact ⟨rfl, rfl⟩

theorem releaseBlock_still : BlockStill releaseBlock := fun a s => by
  unfold releaseBlock
  repeat' split
  all_goals exact ⟨rfl, rfl⟩

theorem closeBlock_still : BlockStill closeBlock := fun a s => by
  unfold closeBlock
  repeat' split
  all_goals simp [refuse, Reply.state, StoresSame]

theorem editLine_still : BlockStill editLine := fun a s => by
  unfold editLine applyEdit
  dsimp only
  repeat' split
  all_goals simp [refuse, Reply.state, StoresSame]

theorem setFeed_still : BlockStill setFeed := fun a s => by
  unfold setFeed
  repeat' split
  all_goals simp [refuse, Reply.state, StoresSame]

theorem enableFeed_still : BlockStill enableFeed := fun a s => by
  unfold enableFeed
  repeat' split
  all_goals simp [refuse, Reply.state, StoresSame]

theorem disableFeed_still : BlockStill disableFeed := fun a s => by
  unfold disableFeed
  repeat' split
  all_goals simp [refuse, Reply.state, StoresSame]

theorem testFeed_still : BlockStill testFeed := fun a s => by
  unfold testFeed
  repeat' split
  all_goals simp [refuse, Reply.state, StoresSame]

theorem setClass_still : BlockStill setClass := fun a s => by
  unfold setClass
  dsimp only
  repeat' split
  all_goals simp [refuse, Reply.state, StoresSame]

theorem holdFold_stores (on : Bool) (fs : List (Fin 4)) (s : State) : StoresSame s (fs.foldl (setHold on) s) := by
  induction fs generalizing s with
  | nil => exact .refl s
  | cons f fs ih => simpa [StoresSame] using ih (setHold on s f)

theorem holdOrRelease_still (on : Bool) : BlockStill (holdOrRelease on) := fun a s => by
  unfold holdOrRelease
  repeat' split
  · exact .refl s
  · exact .refl s
  · exact holdFold_stores on _ s

/-! ### The resets -/

theorem cutTransfer_wf (s : State) (h : Memory.wf s.memory) : Memory.wf (cutTransfer s).memory := by
  unfold cutTransfer
  repeat' split
  · exact cut_wf _ _ _ _ h
  · exact h
  · exact cut_wf _ _ _ _ h
  · exact h

theorem coldReset_canonical (s : State) (h : StoresCanonical s) : StoresCanonical (coldReset s) :=
  ⟨cutTransfer_wf s h.1, .nil⟩

/-- A warm reset keeps the BAD records alone (R54). -/
theorem warmReset_canonical (c : ResetCause) (s : State) (h : StoresCanonical s) : StoresCanonical (warmReset c s) := by
  refine ⟨cutTransfer_wf s h.1, ?_⟩
  simp only [warmReset, cutTransfer_keeps]
  exact filter_rising _ _ h.2

theorem rstnAsserted_canonical (s : State) (h : StoresCanonical s) : StoresCanonical (rstnAsserted s) := by
  unfold rstnAsserted
  split
  · exact h
  · exact warmReset_canonical .rstn s h

theorem resetPartExpired_canonical (s : State) (h : StoresCanonical s) : StoresCanonical (resetPartExpired s) := by
  unfold resetPartExpired
  split
  · exact warmReset_canonical _ s h
  · exact h

/-- A fetch leaves the stores, but for the reset that the end of a Reset Part's response brings (R68). -/
theorem fetched_canonical (l : Link) (n : Nat) (s : State) (h : StoresCanonical s) : StoresCanonical (fetched l n s) := by
  have hsent : ∀ bs, StoresCanonical (sent l bs s) := fun bs => StoresSame.canonical (by simp [StoresSame]) h
  have hread : ∀ bs, StoresCanonical (readWhole l bs s) := fun bs => StoresSame.canonical (by simp [StoresSame]) h
  unfold fetched
  dsimp only
  repeat' split
  · exact h
  · exact hsent _
  · unfold resetIfArmed
    split
    · exact warmReset_canonical _ _ (hread _)
    · exact hread _
  · exact hsent _
  · exact hsent _

/-! ### Recovery -/

theorem setSlot_rising (t : SlotTable) (slot : Nat) (r : Option SlotRec) (h : sparseRising t) : sparseRising (setSlot t slot r) := by
  cases r with
  | none => exact sparseDrop_rising _ _ h
  | some r => exact sparsePut_rising _ _ _ h

theorem recoverSlot_canonical (r : RecoveryRead) (s : State) (h : StoresCanonical s) : StoresCanonical (recoverSlot r s) := by
  unfold recoverSlot
  repeat' split
  · exact ⟨h.1, setSlot_rising _ _ _ h.2⟩
  · exact h
  · exact h

theorem finishRecovery_canonical (s : State) (h : StoresCanonical s) : StoresCanonical (finishRecovery s) := by
  unfold finishRecovery
  split
  · simp only [StoresCanonical, postBoth_keeps]
    exact ⟨h.1, filter_rising _ _ h.2⟩
  · exact h

/-! ### The ends of transfers -/

theorem resumeIfSuspended_store (i : Fin 4) (s : State) : StoreKept s (resumeIfSuspended i s) := by
  unfold resumeIfSuspended
  split
  · exact endSuspension_store i s
  · exact .of_eq rfl

theorem failureCheck_store (s : State) : StoreKept s (failureCheck s) := by
  unfold failureCheck
  split
  · exact enterFault_store _ s
  · exact .of_eq rfl

theorem lowCheck_store (b : Journal) (s : State) : StoreKept s (lowCheck b s) := .of_eq (by simp)

/-- A write that ends is stored or failed, with what follows of that; a port that carries no write leaves the state (R36, R37, R39, R40). -/
theorem endWrite_cases (ok : Bool) (s : State) :
    endWrite ok s = s ∨ ∃ i slot b n, s.journal.port = .write i slot ∧ s.journal.buffers.get i = .writing b n ∧
      endWrite ok s = if ok then closingReport (resumeIfSuspended i (lowCheck s.journal (writeStored i slot b s)))
        else failureCheck (lowCheck s.journal (writeFailed i slot b s)) := by
  unfold endWrite
  split
  · next i slot hp =>
    split
    · next b n hb => exact .inr ⟨i, slot, b, n, hp, hb, rfl⟩
    · exact .inl rfl
  · exact .inl rfl

/-- What follows a write stored leaves the slot table, the failure count and the port. -/
theorem afterStored_store (b : Journal) (i : Fin 4) (s : State) : StoreKept s (closingReport (resumeIfSuspended i (lowCheck b s))) :=
  (lowCheck_store b s).trans ((resumeIfSuspended_store i _).trans (closingReport_store _))

/-- What follows a transfer failed leaves the slot table, the failure count and the port. -/
theorem afterFailed_store (b : Journal) (s : State) : StoreKept s (failureCheck (lowCheck b s)) :=
  (lowCheck_store b s).trans (failureCheck_store _)

theorem endWrite_canonical (ok : Bool) (s : State) (h : StoresCanonical s) : StoresCanonical (endWrite ok s) := by
  rcases endWrite_cases ok s with e | ⟨i, slot, b, n, -, -, e⟩
  · rwa [e]
  · rw [e]
    split
    · refine ⟨?_, (afterStored_store _ i (writeStored i slot b s)).slots ▸ ?_⟩
      · simpa [writeStored] using write_wf s.memory slot b.bytes h.1
      · simpa [writeStored] using sparsePut_rising slot _ _ h.2
    · refine ⟨?_, (afterFailed_store _ (writeFailed i slot b s)).slots ▸ sparsePut_rising _ _ _ h.2⟩
      simpa [writeFailed] using cut_wf s.memory s.events slot b.bytes h.1

theorem recheck_rising (t : SlotTable) (slot : Nat) (good : Bool) (h : sparseRising t) : sparseRising (recheck t slot good) := by
  unfold recheck
  repeat' split
  · exact sparsePut_rising _ _ _ h
  · exact h
  · exact h
  · exact sparsePut_rising _ _ _ h
  · exact h

theorem endRead_canonical (r : SlotRead) (s : State) (h : StoresCanonical s) : StoresCanonical (endRead r s) := by
  unfold endRead
  split
  · split
    · exact StoresSame.canonical (by simp [StoresSame]) h
    · simp only [StoresCanonical, finish_keeps]
      exact ⟨h.1, recheck_rising _ _ _ h.2⟩
  · exact h

theorem endClear_canonical (ok : Bool) (s : State) (h : StoresCanonical s) : StoresCanonical (endClear ok s) := by
  unfold endClear
  split
  · next slot _ _ =>
    split
    · simp only [StoresCanonical, lowCheck_keeps, clearDone, finish_keeps]
      exact ⟨write_wf _ _ _ h.1, sparseDrop_rising _ _ h.2⟩
    · refine ⟨?_, (afterFailed_store _ (clearFailed slot s)).slots ▸ ?_⟩
      · simpa [clearFailed] using cut_wf s.memory s.events slot _ h.1
      · simpa [clearFailed] using sparsePut_rising slot .bad _ h.2
  · exact h

/-! ### Every command -/

theorem exec_canonical (c : Instr) (s : State) (h : StoresCanonical s) : NextMeets StoresCanonical (exec c s) := by
  cases c with
  | powerOn => exact coldReset_canonical s h
  | rstnAssert => exact rstnAsserted_canonical s h
  | rstnRelease => exact (rstnReleased_stores s).canonical h
  | resetPartTimeout => exact resetPartExpired_canonical s h
  | recoverySlotRead r => exact recoverSlot_canonical r s h
  | recoveryComplete => exact finishRecovery_canonical s h
  | keySample raw =>
    show StoresCanonical (if s.pins.rstnHeld then s else takeSample raw.toNat s)
    split
    · exact h
    · exact (takeSample_stores _ s).canonical h
  | holdTimerExpiry => exact (holdExpiry_stores s).canonical h
  | zeroingComplete => exact (zeroingDone_stores s).canonical h
  | blockIntervalExpiry => exact (intervalExpiry_stores s).canonical h
  | blockWriteStart => exact (startWrite_stores s).canonical h
  | reporterTransferStart => exact (startReporterTransfer_stores s).canonical h
  | blockWriteComplete ok => exact endWrite_canonical ok s h
  | blockReadComplete r => exact endRead_canonical r s h
  | headerClearComplete ok => exact endClear_canonical ok s h
  | buildComplete => exact (buildDone_stores s).canonical h
  | strokeHandover => exact (takeNext_stores s).canonical h
  | resolutionTimerExpiry => exact (resolutionExpired_stores s).canonical h
  | tierChangeNotice => exact (tiersChanged_stores s).canonical h
  | sbarChange high => exact (sbarChanged_stores high s).canonical h
  | deglitchExpiry => exact (deglitchExpired_stores s).canonical h
  | fnrdyChange f high => exact (rdyChanged_stores f high s).canonical h
  | fgate3Change high => exact (gateChanged_stores high s).canonical h
  | frameComplete f => exact (frameDone_stores f s).canonical h
  | idleTimerExpiry f => exact (idleExpired_stores f s).canonical h
  | stallTimerExpiry f => exact (stallExpired_stores f s).canonical h
  | presenceTimerExpiry l => exact (presenceExpired_stores l s).canonical h
  | fetch l n => exact fetched_canonical l n s h
  | frameError l bytes => exact (frameMalformed_stores l bytes s).canonical h
  | frameDiscarded l bytes => exact (frameThrownAway_stores l bytes s).canonical h
  | unknownRequest l code tag => exact (frameUnknown_stores l code tag s).canonical h
  | getStatus l tag p => exact serve_still l tag _ p (block := getStatus) (fun _ x => .refl x) s h
  | readAttention l tag p => exact serve_still l tag _ p (readAttention_still l) s h
  | readLines l tag p => exact serve_still l tag _ p readLines_still s h
  | setMark l tag p => exact serve_still l tag _ p (setMark_still l) s h
  | removeMark l tag p => exact serve_still l tag _ p (removeMark_still l) s h
  | listMarks l tag p => exact serve_still l tag _ p listMarks_still s h
  | readFeedHealth l tag p => exact serve_still l tag _ p (block := readHealth l) (fun _ x => .refl x) s h
  | setTranslationParameters l tag p => exact serve_still l tag _ p (fun _ _ => ⟨rfl, rfl⟩) s h
  | setKeyConditioning l tag p => exact serve_still l tag _ p setConditioning_still s h
  | setChordTiming l tag p => exact serve_still l tag _ p setTiming_still s h
  | zeroKeys l tag p => exact serve_still l tag _ p zeroKeys_still s h
  | readKeyDepths l tag p => exact serve_still l tag _ p (block := readDepths) (fun _ x => .refl x) s h
  | beginMainLoad l tag p => exact serve_still l tag _ p beginLoad_still s h
  | loadEntries l tag p => exact serve_still l tag _ p loadEntries_still s h
  | endMainLoad l tag p => exact serve_still l tag _ p endLoad_still s h
  | openGroup l tag p => exact serve_still l tag _ p openStaged_still s h
  | stageDefine l tag p => exact serve_still l tag _ p stageDefine_still s h
  | stageRemove l tag p => exact serve_still l tag _ p stageRemove_still s h
  | commitGroup l tag p => exact serve_still l tag _ p commitGroup_still s h
  | abandonGroup l tag p => exact serve_still l tag _ p abandonGroup_still s h
  | clearJobTier l tag p => exact serve_still l tag _ p clearJob_still s h
  | lookUp l tag p => exact serve_still l tag _ p lookUp_still s h
  | openSession l tag p => exact serve_still l tag _ p openSession_still s h
  | recess l tag p => exact serve_still l tag _ p recess_still s h
  | resume l tag p => exact serve_still l tag _ p resume_still s h
  | closeSession l tag p => exact serve_still l tag _ p closeSession_still s h
  | resetPart l tag p => exact serve_still l tag _ p (block := resetPart) (fun _ _ => ⟨rfl, rfl⟩) s h
  | readJournalBlock l tag p => exact serve_still l tag _ p readBlock_still s h
  | releaseJournalBlock l tag p => exact serve_still l tag _ p releaseBlock_still s h
  | closeJournalBlock l tag p => exact serve_still l tag _ p closeBlock_still s h
  | journalSummary l tag p => exact serve_still l tag _ p (block := readSummary) (fun _ x => .refl x) s h
  | editLine l tag p => exact serve_still l tag _ p editLine_still s h
  | setFeed l tag p => exact serve_still l tag _ p setFeed_still s h
  | enableFeed l tag p => exact serve_still l tag _ p enableFeed_still s h
  | disableFeed l tag p => exact serve_still l tag _ p disableFeed_still s h
  | testFeed l tag p => exact serve_still l tag _ p testFeed_still s h
  | setClass l tag p => exact serve_still l tag _ p setClass_still s h
  | holdFeeds l tag p => exact serve_still l tag _ p (holdOrRelease_still true) s h
  | releaseFeeds l tag p => exact serve_still l tag _ p (holdOrRelease_still false) s h

/-- Settles O27: on an empty queue the tick leaves both stores, and each command keeps their form. -/
theorem storesStayCanonical : Obligations.StoresStayCanonical := by
  intro s t hs e
  unfold step at e
  split at e
  · cases e
    exact hs
  · next c rest _ =>
    have h := exec_canonical c { s with pending := rest } hs
    rw [e] at h
    exact h

end Sys2Proof.Machine

/-! The step (O1), the memory at a reset (O4), recovery (O8, O9) and the memory port's transfers at their start (O18, O19). -/

namespace Sys2Proof.Machine

/-- Settles O1: the front of the queue is the command the step takes. -/
theorem stepTakesFrontCommand : Obligations.StepTakesFrontCommand := fun _ _ _ => rfl

/-! ### The memory at a reset -/

/-- A slot read after a transfer to another was cut or failed. -/
theorem read_cut_ne (m : Memory) (k slot a : Nat) (new : List Byte) (h : Memory.wf m) (ha : a ≠ slot) :
    (m.cut k slot new).read a = m.read a := by
  rw [Memory.cut, read_write _ _ _ _ h, if_neg ha.symm]

/-- A transfer cut leaves the memory, but for the slot of a write or a header clear that runs (R53, R54). -/
def CutOnly (s : State) (m : Memory) : Prop :=
  (∀ i slot a, s.journal.port = .write i slot → a ≠ slot → m.read a = s.memory.read a) ∧
    (∀ slot seq a, s.journal.port = .reporter (.clear slot seq) → a ≠ slot → m.read a = s.memory.read a) ∧
    (∀ slot seq, s.journal.port = .reporter (.read slot seq) → m = s.memory) ∧
    (s.journal.port = .idle → m = s.memory)

theorem cutOnly_self (s : State) : CutOnly s s.memory :=
  ⟨fun _ _ _ _ _ => rfl, fun _ _ _ _ _ => rfl, fun _ _ _ => rfl, fun _ => rfl⟩

theorem cutTransfer_cutOnly (s : State) (h : Memory.wf s.memory) : CutOnly s (cutTransfer s).memory := by
  unfold cutTransfer
  cases hp : s.journal.port with
  | idle => exact cutOnly_self s
  | write i slot =>
    dsimp only
    split
    · refine ⟨fun i' slot' a hp' ha => ?_, by simp [hp], by simp [hp], by simp [hp]⟩
      cases hp.symm.trans hp'
      exact read_cut_ne _ _ _ _ _ h ha
    · exact cutOnly_self s
  | reporter x =>
    cases x with
    | read slot seq => exact cutOnly_self s
    | clear slot seq =>
      refine ⟨by simp [hp], fun slot' seq' a hp' ha => ?_, by simp [hp], by simp [hp]⟩
      cases hp.symm.trans hp'
      exact read_cut_ne _ _ _ _ _ h ha

/-- Each of the four commands leaves the memory, or cuts the transfer that runs (R53, R54, R68). -/
theorem reset_memory (s t : State)
    (h : exec .powerOn s = .next t ∨ exec .rstnAssert s = .next t ∨ exec .resetPartTimeout s = .next t ∨
      ∃ n, exec (.fetch .reporter n) s = .next t) : t.memory = s.memory ∨ t.memory = (cutTransfer s).memory := by
  rcases h with h | h | h | ⟨n, h⟩ <;> injection h with h <;> subst h
  · exact .inr rfl
  · unfold rstnAsserted
    split
    · exact .inl rfl
    · exact .inr rfl
  · unfold resetPartExpired
    split
    · exact .inr rfl
    · exact .inl rfl
  · unfold fetched
    dsimp only
    repeat' split
    · exact .inl rfl
    · exact .inl rfl
    · unfold resetIfArmed
      split
      · rw [warmReset_readWhole]
        exact .inr rfl
      · exact .inl rfl
    · exact .inl rfl
    · exact .inl rfl

/-- Settles O4. -/
theorem resetCutsOnlyTheRunningTransfer : Obligations.ResetCutsOnlyTheRunningTransfer := by
  intro s t hw h
  show CutOnly s t.memory
  rcases reset_memory s t h with e | e <;> rw [e]
  · exact cutOnly_self s
  · exact cutTransfer_cutOnly s hw

/-! ### Recovery -/

theorem setSlot_classifyRead (t : SlotTable) (slot : Nat) (bytes : List Byte) :
    setSlot t slot (classifyRead bytes) =
      if headerValid bytes then
        if crcGood bytes then sparsePut slot (.stored (headerInfo bytes)) t else sparsePut slot (.corrupt (headerInfo bytes)) t
      else sparseDrop slot t := by
  unfold classifyRead
  repeat' split
  all_goals rfl

/-- Settles O8, by what the device's answer classifies the slot as. -/
theorem recoveryReadClassifiesTheSlot : Obligations.RecoveryReadClassifiesTheSlot := by
  intro r s slot hst hr hn
  show Host.Outcome.next (recoverSlot r s) = _
  have e : recoverSlot r s = { s with journal := { s.journal with
      slots := setSlot s.journal.slots slot (classify (s.memory.read slot) r), cursor := slot + 1 } } := by
    simp [recoverSlot, recovering, hst, hr, hn]
  rw [e]
  cases r with
  | headerFailed => rfl
  | restFailed =>
    simp only [classify]
    split <;> rfl
  | asHeld => simp only [classify, setSlot_classifyRead]
  | altered bytes => simp only [classify, setSlot_classifyRead]

/-- A counter that fits its 32 bits stands at the value recovery found (R51). -/
theorem counter32_of_lt (n : Nat) (h : n < 4294967295) : counter32 (n + 1) = n + 1 := if_pos h

/-- Settles O9: with both counters within 32 bits. -/
theorem recoveryCompleteEntersStandby : Obligations.RecoveryCompleteEntersStandby := by
  intro s hst hr hn hseq hent
  show Host.Outcome.next (finishRecovery s) = _
  have hl : ((highestBlock (storedBlocks (dedupe s.journal.slots))).map Prod.fst).getD (nSlots - 1) =
      (match newestStored (dedupe s.journal.slots) with | some p => p.1 | none => 2047) := by
    unfold newestStored
    cases highestBlock (storedBlocks (dedupe s.journal.slots)) <;> rfl
  have hspent : decide (max32 ≤ highestOf (·.seq) (storedBlocks (dedupe s.journal.slots))) = false :=
    decide_eq_false (Nat.not_le.2 hseq)
  have hj : recoveredJournal s.journal = { s.journal with
      slots := dedupe s.journal.slots
      nextBlock := highestOf (·.seq) (storedBlocks (dedupe s.journal.slots)) + 1
      nextEntry := highestOf (fun i => i.firstEntry + i.count - 1) (storedBlocks (dedupe s.journal.slots)) + 1
      blockSpent := false
      lastSlot := match newestStored (dedupe s.journal.slots) with | some p => p.1 | none => 2047
      lastStored := highestOf (·.seq) (storedBlocks (dedupe s.journal.slots))
      corruptFound := corruptSlots s.journal.slots
      failures := 0
      cond := .normal
      restartPending := true } := by
    simp only [recoveredJournal, counter32_of_lt _ hseq, counter32_of_lt _ hent, hspent, hl]
  simp only [finishRecovery, recovering, hst, hr, hn, hj]
  rfl

/-! ### The start of a transfer -/

/-- The search upward from a slot finds the first FREE one: those before it on the way are not FREE (R35). -/
theorem searchFree_first (t : SlotTable) (n a slot : Nat) (ha : a < 2048) (h : searchFree t n a = some slot) :
    ∃ k, k < n ∧ slot = (a + k) % 2048 ∧ slotFree t slot = true ∧ ∀ j, j < k → slotFree t ((a + j) % 2048) = false := by
  induction n generalizing a with
  | zero => simp [searchFree] at h
  | succ n ih =>
    unfold searchFree at h
    split at h
    · next hf =>
      cases h
      exact ⟨0, by omega, by simp [Nat.mod_eq_of_lt ha], hf, by simp⟩
    · next hf =>
      obtain ⟨k, hk, hs, hfree, hbefore⟩ := ih _ (Nat.mod_lt _ (by decide)) h
      have hshift : ∀ j, ((a + 1) % 2048 + j) % 2048 = (a + (j + 1)) % 2048 := fun j => by
        rw [Nat.mod_add_mod]
        congr 1
        omega
      refine ⟨k + 1, by omega, by rw [hs]; exact hshift k, hfree, fun j hj => ?_⟩
      cases j with
      | zero => simpa [Nat.mod_eq_of_lt ha] using hf
      | succ j =>
        rw [← hshift]
        exact hbefore j (by omega)

/-- Settles O18. -/
theorem writeStartTakesTheNextFreeSlot : Obligations.WriteStartTakesTheNextFreeSlot := by
  intro s i rest b held slot hp hc hq hb hn
  refine ⟨?_, ?_⟩
  · show Host.Outcome.next (startWrite s) = _
    simp [startWrite, hp, hc, hq, hb, hn]
  · obtain ⟨k, hk, hs, hfree, hbefore⟩ := searchFree_first _ _ _ _ (Nat.mod_lt _ (by decide)) hn
    simp only [Nat.mod_add_mod] at hs hbefore
    exact ⟨k, hk, hs, hfree, hbefore⟩

/-- Settles O19. -/
theorem reporterTransferYieldsToAWrite : Obligations.ReporterTransferYieldsToAWrite := by
  intro s slot seq hp
  have e : exec .reporterTransferStart s = .next (startReporterTransfer s) := rfl
  refine ⟨fun hw hx => ?_, fun hw hx hc => ?_, fun hx hc => ?_, fun hw => ?_⟩ <;> rw [e, startReporterTransfer]
  · simp [hp, hw, hx]
  · simp [hp, hw, hx, hc]
  · simp [hx, hc]
  · simp [hw]

end Sys2Proof.Machine

/-! The drain requests and the ends of the reporter's transfers (O22, O23, O25), the block close interval (O24). -/

namespace Sys2Proof.Machine

/-! ### The end of a block read -/

/-- What a device delivers as a slot's bytes is taken as it stands (R218). -/
theorem fitSlot_of_length (bytes : List Byte) (h : bytes.length = 1056) : fitSlot bytes = bytes := by
  simp [fitSlot, ← h]

theorem readData_delivered (m : Memory) (slot : Nat) (r : SlotRead) (bytes : List Byte)
    (h : (r = .asHeld ∧ bytes = m.read slot) ∨ (r = .altered bytes ∧ bytes.length = 1056)) : readData m slot r = some bytes := by
  rcases h with ⟨rfl, rfl⟩ | ⟨rfl, hl⟩
  · rfl
  · simp [readData, fitSlot_of_length bytes hl]

/-- A request the reporter link holds EXECUTING is answered. -/
theorem finish_executing (st : Status) (p : List Byte) (s : State) (code tag : Byte) (h : s.reporter.exch = .executing code tag) :
    finish .reporter st p s =
      { s with reporter := { s.reporter with exch := .ready { code := code, tag := tag, status := st, payload := p } } } := by
  simp [finish, State.link, h, respond, State.setLink]

section Read

variable (s : State) (slot seq : Nat) (code tag : Byte) (hp : s.journal.port = .reporter (.read slot seq))
  (hx : s.reporter.exch = .executing code tag)
include hp hx

/-- The read failed (R46). -/
theorem endRead_failed : endRead .failed s = { s with
    journal := { s.journal with port := .idle }
    reporter := { s.reporter with exch := .ready { code := code, tag := tag, status := .corrupt, payload := [1#8] } } } := by
  simp only [endRead, hp, readData]
  exact finish_executing _ _ _ _ _ hx

/-- The read delivered 1,056 bytes (R46). -/
theorem endRead_delivered (r : SlotRead) (bytes : List Byte) (h : readData s.memory slot r = some bytes) : endRead r s = { s with
    journal := { s.journal with port := .idle, slots := recheck s.journal.slots slot (crcGood bytes) }
    reporter := { s.reporter with
      exch := .ready { code := code, tag := tag, status := if crcGood bytes then .ok else .corrupt, payload := 0#8 :: bytes } } } := by
  simp only [endRead, hp, h]
  exact finish_executing _ _ _ _ _ hx

end Read

/-- Settles O22: the record and the status by what stood there and by the CRC. -/
theorem readCompletionAnswersTheBlock : Obligations.ReadCompletionAnswersTheBlock := by
  intro s slot seq code tag hp hx
  refine ⟨congrArg _ (endRead_failed s slot seq code tag hp hx), fun r bytes hr => ?_⟩
  have e := endRead_delivered s slot seq code tag hp hx r bytes (readData_delivered _ _ _ _ hr)
  have e : exec (.blockReadComplete r) s = .next _ := congrArg Host.Outcome.next e
  refine ⟨fun i hi hg => ?_, fun i hi hg => ?_, fun i hi hg => ?_, fun i hi hg => ?_⟩ <;> rw [e] <;> simp [recheck, hi, hg]

/-! ### The block close interval -/

/-- Settles O24: the block is closed with its close time, its reason and the CRC computed over it. -/
theorem intervalClosesTheFillingBlock : Obligations.IntervalClosesTheFillingBlock := by
  intro s e ht
  have hx : exec .blockIntervalExpiry s = .next (intervalExpiry s) := rfl
  refine ⟨fun i b hd hf => ⟨b.closed .interval s.session.clock, ?_, rfl, rfl⟩, fun hd => ?_⟩ <;> rw [hx, intervalExpiry]
  · simp [Timer.due, ht, hd, closeFilling, hf]
  · simp [Timer.due, ht, Nat.not_le.2 hd]

/-! ### The drain requests -/

section Drain

variable (tag : Byte) (s : State) (ht : Takes .reporter s)
include ht

theorem exec_readJournalBlock (n : Nat) : exec (.readJournalBlock .reporter tag (.fields n)) s =
    .next (deliver .reporter Req.readJournalBlock.code tag (readBlock n (touchPresence .reporter s))) :=
  congrArg _ (serve_takes _ _ _ _ _ s ht rfl)

theorem exec_releaseJournalBlock (n : Nat) : exec (.releaseJournalBlock .reporter tag (.fields n)) s =
    .next (deliver .reporter Req.releaseJournalBlock.code tag (releaseBlock n (touchPresence .reporter s))) :=
  congrArg _ (serve_takes _ _ _ _ _ s ht rfl)

theorem exec_closeJournalBlock : exec (.closeJournalBlock .reporter tag (.fields ())) s =
    .next (deliver .reporter Req.closeJournalBlock.code tag (closeBlock () (touchPresence .reporter s))) :=
  congrArg _ (serve_takes _ _ _ _ _ s ht rfl)

end Drain

/-- Settles O25: each request answers from the journal, which the frame's arrival leaves as it was. -/
theorem drainRequestsAreTaken : Obligations.DrainRequestsAreTaken := by
  intro tag s n ht
  refine ⟨fun slot i hn hf => ?_, fun slot i ho => ?_, fun hn hf => ?_, fun ho => ?_, fun hc hf => ?_, fun slot i slot' old hc hf ho => ?_,
    fun hc => ?_, fun i b hc hf => ?_, fun hc hf => ?_, fun hc => ?_⟩
  · rw [exec_readJournalBlock tag s ht]
    simp [readBlock, hn, hf]
  · rw [exec_readJournalBlock tag s ht]
    simp [readBlock, ho]
  · rw [exec_readJournalBlock tag s ht]
    cases hb : inBuffer s.journal.buffers n <;> simp [readBlock, hn, hf, hb]
  · rw [exec_readJournalBlock tag s ht]
    simp [readBlock, ho]
  · rw [exec_releaseJournalBlock tag s ht]
    cases hb : inBuffer s.journal.buffers n <;> simp [releaseBlock, hc, hf, hb]
  · rw [exec_releaseJournalBlock tag s ht]
    by_cases hs : old.seq = n <;> simp [releaseBlock, hc, hf, ho, hs]
  · rw [exec_releaseJournalBlock tag s ht]
    simp [releaseBlock, hc]
  · rw [exec_closeJournalBlock tag s ht]
    simp [closeBlock, hc, hf, closeFilling, optField]
  · rw [exec_closeJournalBlock tag s ht]
    simp [closeBlock, hc, hf, optField]
  · rw [exec_closeJournalBlock tag s ht]
    simp [closeBlock, hc]

end Sys2Proof.Machine

/-! An append request (O26): a block opened, an entry put into the FILLING block, and an entry counted. -/

namespace Sys2Proof.Machine

/-! ### The buffers -/

theorem mem_allFeeds (i : Fin 4) : i ∈ allFeeds := by
  revert i
  decide

/-- The FILLING buffer is a FILLING buffer. -/
theorem fillingBlock_of_findFilling (q : Quad Buffer) (i : Fin 4) (b : Block) (h : findFilling q = some (i, b)) :
    (q.get i).fillingBlock = some b := by
  obtain ⟨j, -, hj⟩ := List.exists_of_findSome?_eq_some h
  obtain ⟨x, hx, hp⟩ := Option.map_eq_some_iff.1 hj
  cases hp
  exact hx

/-- With no FILLING block, the block put FILLING into a buffer is the one found (R26). -/
theorem findFilling_opened (q : Quad Buffer) (i : Fin 4) (b : Block) (h : findFilling q = none) :
    findFilling (q.set i (.filling b)) = some (i, b) := by
  have hall : ∀ j, (q.get j).fillingBlock = none := fun j => by
    simpa using List.findSome?_eq_none_iff.1 h j (mem_allFeeds j)
  cases hf : findFilling (q.set i (.filling b)) with
  | none =>
    simpa [Buffer.fillingBlock] using List.findSome?_eq_none_iff.1 hf i (mem_allFeeds i)
  | some p =>
    have hp := fillingBlock_of_findFilling _ p.1 p.2 hf
    by_cases hi : i = p.1
    · subst hi
      simp only [quad_get_set_self, Buffer.fillingBlock, Option.some.injEq] at hp
      rw [hp]
    · rw [quad_get_set_ne q i p.1 _ hi, hall] at hp
      exact absurd hp (by simp)

/-- A buffer freed is not FILLING (R36). -/
theorem findFilling_freed (q : Quad Buffer) (i : Fin 4) (h : findFilling q = none) : findFilling (q.set i .free) = none := by
  refine List.findSome?_eq_none_iff.2 fun j hj => ?_
  have := List.findSome?_eq_none_iff.1 h j hj
  by_cases hi : i = j
  · subst hi
    simp [Buffer.fillingBlock]
  · rwa [quad_get_set_ne q i j _ hi]

/-- The lowest-numbered FREE buffer is FREE, and none below it is (R30). -/
theorem lowestFree_spec (q : Quad Buffer) (i : Fin 4) (h : lowestFree q = some i) :
    q.get i = .free ∧ ∀ j, j < i → q.get j ≠ .free := by
  obtain ⟨hi, k, hk, hki, hbefore⟩ := List.find?_eq_some_iff_getElem.1 h
  have hget : ∀ j : Fin 4, allFeeds[j.val]'j.isLt = j := by decide
  have hki : (⟨k, hk⟩ : Fin 4) = i := (hget ⟨k, hk⟩).symm.trans hki
  refine ⟨of_decide_eq_true hi, fun j hj => ?_⟩
  subst hki
  have h := hbefore j.val hj
  have e : allFeeds[j.val]'(Nat.lt_trans hj hk) = j := hget j
  simpa [e] using h

/-! ### An entry put into the FILLING block -/

theorem length_add_entries (b : Block) (e : Entry) : (b.add e).entries.length = b.entries.length + 1 := by
  simp [Block.add]

/-- An entry joins a FILLING block with room and takes the entry sequence (R29). -/
theorem putEntry_with_room (e : Entry) (s : State) (i : Fin 4) (b : Block) (hf : findFilling s.journal.buffers = some (i, b))
    (hb : b.entries.length < 63) (hn : s.journal.nextEntry < 4294967295) :
    putEntry e s = { s with journal := { s.journal with
      buffers := s.journal.buffers.set i (.filling (b.add e)), nextEntry := s.journal.nextEntry + 1 } } := by
  have hlen : ¬blockEntries ≤ (b.add e).entries.length := by
    rw [length_add_entries]
    exact fun h => absurd h (by simp only [blockEntries]; omega)
  simp only [putEntry, hf, hlen, if_false, if_pos hn, succHold_of_lt hn]

/-- The 64th entry closes its block FULL (R31). -/
theorem putEntry_fills (e : Entry) (s : State) (i : Fin 4) (b : Block) (hf : findFilling s.journal.buffers = some (i, b))
    (hb : b.entries.length = 63) (hn : s.journal.nextEntry < 4294967295) :
    putEntry e s = { s with journal := { s.journal with
      buffers := s.journal.buffers.set i (.queued ((b.add e).closed .full s.session.clock) none)
      queue := s.journal.queue ++ [i], intervalTimer := none, nextEntry := s.journal.nextEntry + 1 } } := by
  have hlen : blockEntries ≤ (b.add e).entries.length := by simp [length_add_entries, hb]
  simp only [putEntry, hf, hlen, if_true, if_pos hn, succHold_of_lt hn, closeFilling, findFilling_set _ _ _ _ hf, quad_set_set]

/-- The state with a block FILLING in buffer `i` and the entry sequence counter at `n`. -/
def withFilling (i : Fin 4) (b : Block) (n : Nat) (s : State) : State :=
  { s with journal := { s.journal with buffers := s.journal.buffers.set i (.filling b), nextEntry := n } }

/-- An entry that takes the last entry sequence makes the journal FAULTED (R29). -/
theorem putEntry_last (e : Entry) (s : State) (i : Fin 4) (b : Block) (hf : findFilling s.journal.buffers = some (i, b))
    (hb : b.entries.length < 63) (hn : 4294967295 ≤ s.journal.nextEntry) :
    putEntry e s = enterFault .sequenceExhausted (withFilling i (b.add e) 4294967295 s) := by
  have hlen : ¬blockEntries ≤ (b.add e).entries.length := by
    rw [length_add_entries]
    exact fun h => absurd h (by simp only [blockEntries]; omega)
  have hlt : ¬s.journal.nextEntry < max32 := Nat.not_lt.2 hn
  simp only [putEntry, hf, hlen, if_false, hlt, succHold, withFilling]

/-- With a FILLING block an append puts its entry there (R28). -/
theorem append_filling (e : Entry) (s : State) (i : Fin 4) (b : Block) (hc : s.journal.cond = .normal)
    (hf : findFilling s.journal.buffers = some (i, b)) : append e s = putEntry e s := by
  simp [append, hc, hf]

/-! ### A block opened -/

/-- The block opened by the next append that finds none FILLING, before its first entry (R30). -/
def freshBlock (s : State) : Block :=
  { seq := s.journal.nextBlock, session := s.session.number, firstEntry := s.journal.nextEntry
    incomplete := false, restart := false, reason := none
    openTime := s.session.clock, closeTime := 0, firstStroke := none, lastStroke := none
    entries := [], crc := 0#16 }

/-- The state with a block open in buffer `i` that holds `es`, put there one by one (R29, R30, R52). -/
def openedWith (i : Fin 4) (es : List Entry) (s : State) : State :=
  { s with journal := { s.journal with
      buffers := s.journal.buffers.set i (.filling (es.foldl Block.add (freshBlock s)))
      nextBlock := succHold max32 s.journal.nextBlock
      blockSpent := decide (max32 ≤ s.journal.nextBlock)
      intervalTimer := some (s.now + s.journal.interval)
      nextEntry := s.journal.nextEntry + es.length
      restartPending := false } }

/-- The RESTART entry where it is pending (R52). -/
def pendingRestart (s : State) : List Entry := if s.journal.restartPending then [restartEntry s] else []

theorem length_foldl_add (es : List Entry) (b : Block) : (es.foldl Block.add b).entries.length = b.entries.length + es.length := by
  induction es generalizing b with
  | nil => rfl
  | cons e es ih =>
    rw [List.foldl_cons, ih, length_add_entries, List.length_cons]
    omega

/-- An entry put into a block just opened. -/
theorem putEntry_openedWith (e : Entry) (i : Fin 4) (es : List Entry) (s : State) (hf : findFilling s.journal.buffers = none)
    (hl : es.length < 63) (hn : s.journal.nextEntry + es.length < 4294967295) :
    putEntry e (openedWith i es s) = openedWith i (es ++ [e]) s := by
  have hlen : (es.foldl Block.add (freshBlock s)).entries.length < 63 := by
    rw [length_foldl_add]
    simpa [freshBlock] using hl
  rw [putEntry_with_room e (openedWith i es s) i _ (findFilling_opened _ _ _ hf) hlen hn]
  simp [openedWith, quad_set_set, Nat.add_assoc]

/-- A block opens with the RESTART entry first where it is pending (R30, R52). -/
theorem putRestart_openBlock (i : Fin 4) (s : State) (hf : findFilling s.journal.buffers = none)
    (hn : s.journal.nextEntry + (pendingRestart s).length < 4294967295) :
    putRestart (openBlock i s) = openedWith i (pendingRestart s) s := by
  unfold putRestart
  cases hp : s.journal.restartPending with
  | false =>
    simp [pendingRestart, hp, openedWith, openBlock, freshBlock]
  | true =>
    have hp' : (openBlock i s).journal.restartPending = true := hp
    have hr : pendingRestart s = [restartEntry s] := by simp [pendingRestart, hp]
    rw [hr] at hn ⊢
    rw [if_pos hp']
    exact putEntry_openedWith (restartEntry s) i [] s hf (by decide) (Nat.lt_of_le_of_lt (by simp) hn)

/-- An append that finds no FILLING block opens one in the lowest FREE buffer (R30, R52). -/
theorem append_opens (e : Entry) (s : State) (i : Fin 4) (hc : s.journal.cond = .normal) (hf : findFilling s.journal.buffers = none)
    (hi : lowestFree s.journal.buffers = some i) (hb : s.journal.blockSpent = false)
    (hn : s.journal.nextEntry + (pendingRestart s).length < 4294967295) :
    append e s = openedWith i (pendingRestart s ++ [e]) s := by
  have hl : (pendingRestart s).length < 63 := by
    unfold pendingRestart
    split <;> simp
  have hc' : (openedWith i (pendingRestart s) s).journal.cond = .normal := hc
  simp only [append, hc, hf, hi, hb, Bool.false_eq_true, if_false, putRestart_openBlock i s hf hn, putOrCount, hc', if_true]
  exact putEntry_openedWith e i _ s hf hl hn

/-- The block opened, written out: its flags and its stroke range are those of its entries (R29, R33). -/
theorem openedBlock_eq (e : Entry) (s : State) : (pendingRestart s ++ [e]).foldl Block.add (freshBlock s) =
    { freshBlock s with
      incomplete := decide (e.kind = .gap ∧ pendingRestart s = [])
      restart := decide (pendingRestart s ≠ [] ∨ e.kind = .restart)
      firstStroke := if e.kind = .stroke then some e.seq else none
      lastStroke := if e.kind = .stroke then some e.seq else none
      entries := pendingRestart s ++ [e] } := by
  unfold pendingRestart
  split <;> simp [Block.add, freshBlock, restartEntry]

/-! ### A fault -/

/-- The whole journal after a fault: the counts start at zero from NORMAL and are kept from SUSPENDED, and a waiting header clear may have been
abandoned (R38). -/
theorem enterFault_journal_eq (c : FaultCause) (s : State) (h : s.journal.cond.isFaulted = false) :
    ∃ w, (enterFault c s).journal = { s.journal with
      cond := .faulted c, intervalTimer := none, waiting := w
      missedStrokes := if s.journal.cond = .normal then 0 else s.journal.missedStrokes
      missedOther := if s.journal.cond = .normal then 0 else s.journal.missedOther
      firstMissed := if s.journal.cond = .normal then none else s.journal.firstMissed } := by
  have e : enterFault c s = closingReport (post .reporter .journalFault (abandonClear (setFaulted c (faultCounts s)))) := by
    simp [enterFault, h]
  refine ⟨(enterFault c s).journal.waiting, ?_⟩
  rw [e]
  simp only [closingReport_keeps, post_keeps]
  unfold abandonClear faultCounts
  repeat' split
  all_goals simp_all [setFaulted, clearMissed]

/-- A fault out of NORMAL posts JOURNAL_SUSPENDED to both links (R38). -/
theorem enterFault_told_suspended (c : FaultCause) (s : State) (h : s.journal.cond = .normal) :
    latchHolds .journalSuspended (enterFault c s).reporter.attn = true ∧
      latchHolds .journalSuspended (enterFault c s).bench.attn = true := by
  have e : enterFault c s = closingReport (post .reporter .journalFault (abandonClear
      (setFaulted c (postBoth .journalSuspended (clearMissed s))))) := by
    simp [enterFault, faultCounts, h, JCond.isFaulted]
  rw [e]
  exact FlagsKept.told (.after (closingReport_flags _) (.after (post_flags _ _ _) (.after (abandonClear_flags _) (.of_attn rfl rfl))))

/-! ### An entry counted -/

/-- Where the journal is not NORMAL the entry is counted (R42). -/
theorem append_counted (e : Entry) (s : State) (h : s.journal.cond ≠ .normal) : append e s = countMissed e s := by
  unfold append
  split
  · rfl
  · rfl
  · next hc => exact absurd hc h

theorem countMissed_eq (e : Entry) (s : State) : countMissed e s = { s with journal := { s.journal with
    missedStrokes := if e.kind = .stroke then succHold max24 s.journal.missedStrokes else s.journal.missedStrokes
    missedOther := if e.kind = .stroke then s.journal.missedOther else succHold max24 s.journal.missedOther
    firstMissed := if e.kind = .stroke then some (s.journal.firstMissed.getD e.seq) else s.journal.firstMissed } } := by
  unfold countMissed
  split <;> simp [*]

/-- Settles O26, by the condition and by the buffer the entry finds. -/
theorem appendPutsOrCountsTheEntry : Obligations.AppendPutsOrCountsTheEntry := by
  intro e s
  refine ⟨append_with_room e s, fun i b hc hf hb hn => ?_, fun i b hc hf hb hn => ?_, fun i first b hc hf hi hs hfirst hb hn => ?_,
    fun i hc hf hi hs => ?_, fun hc hf hi => ?_, fun hc => ?_⟩
  · exact ⟨(append_filling e s i b hc hf).trans (putEntry_fills e s i b hf hb hn), rfl, rfl⟩
  · rw [append_filling e s i b hc hf, putEntry_last e s i b hf hb hn]
    have hnf : (withFilling i (b.add e) 4294967295 s).journal.cond.isFaulted = false := by simp [withFilling, hc, JCond.isFaulted]
    obtain ⟨h1, h2, h3, -, h5⟩ := enterFault_journal .sequenceExhausted _ hnf
    obtain ⟨w, hj⟩ := enterFault_journal_eq .sequenceExhausted _ hnf
    exact ⟨h1, congrArg Journal.nextEntry hj, h3, h2, h5⟩
  · obtain rfl : first = pendingRestart s := hfirst
    refine ⟨?_, lowestFree_spec _ _ hi⟩
    rw [append_opens e s i hc hf hi hs hn, openedWith, openedBlock_eq, hb]
    simp [freshBlock, succHold, Nat.add_assoc]
  · have hnf : s.journal.cond.isFaulted = false := by rw [hc]; rfl
    have ha : append e s = countMissed e (enterFault .sequenceExhausted s) := by simp [append, hc, hf, hi, hs]
    obtain ⟨w, hj⟩ := enterFault_journal_eq .sequenceExhausted s hnf
    obtain ⟨hr, hb⟩ := enterFault_told_suspended .sequenceExhausted s hc
    obtain ⟨-, -, -, -, hft⟩ := enterFault_journal .sequenceExhausted s hnf
    rw [ha, countMissed_eq]
    refine ⟨?_, ?_, ?_, ?_, ?_, ?_, hft, hr, hb⟩ <;> simp [hj, hc, succHold]
  · simp [append, hc, hf, hi, suspend, countMissed_eq, clearMissed, succHold]
  · rw [append_counted e s hc, countMissed_eq]
    rfl

end Sys2Proof.Machine

/-! The ends of a block write (O20, O21) and of a header clear (O23). -/

namespace Sys2Proof.Machine

/-! ### JOURNAL_LOW -/

theorem lowNumberIs_iff (j : Journal) (n : Nat) : lowNumberIs j n = true ↔ 2048 - j.slots.length = n + j.failedClears :=
  decide_eq_true_iff

/-- Where a transfer's end takes 1 from the number of R39, JOURNAL_LOW is posted exactly at 65. -/
theorem lowCheck_low_of_fall (b : Journal) (s : State) (h : lowNumberIs b 65 = true → lowNumberIs s.journal 64 = true) :
    lowLatched (lowCheck b s) = (lowLatched s || decide (freeSlots b.slots = 65 + b.failedClears)) := by
  have hiff : (lowNumberIs b 65 = true ∧ lowNumberIs s.journal 64 = true) ↔ freeSlots b.slots = 65 + b.failedClears :=
    ⟨fun hl => of_decide_eq_true hl.1, fun hl => ⟨decide_eq_true hl, h (decide_eq_true hl)⟩⟩
  rw [lowCheck_low]
  simp only [hiff]

/-- A FREE slot taken into the table takes 1 from the number. -/
theorem lowNumberIs_put_free (j j' : Journal) (slot : Nat) (r : SlotRec) (hr : sparseRising j.slots) (hf : slotFree j.slots slot = true)
    (hs : j'.slots = sparsePut slot r j.slots) (hc : j'.failedClears = j.failedClears) (h : lowNumberIs j 65 = true) :
    lowNumberIs j' 64 = true := by
  have hlen : (sparsePut slot r j.slots).length = if slotFree j.slots slot then j.slots.length + 1 else j.slots.length :=
    length_sparsePut slot r j.slots hr
  rw [if_pos hf] at hlen
  rw [lowNumberIs_iff] at h ⊢
  rw [hs, hc, hlen]
  omega

/-- A header clear that fails on a listed slot takes 1 from the number (log entry 43). -/
theorem lowNumberIs_clear_failed (j j' : Journal) (slot : Nat) (r : SlotRec) (hr : sparseRising j.slots)
    (hf : slotFree j.slots slot = false) (hs : j'.slots = sparsePut slot r j.slots) (hc : j'.failedClears = j.failedClears + 1)
    (h : lowNumberIs j 65 = true) : lowNumberIs j' 64 = true := by
  have hlen : (sparsePut slot r j.slots).length = if slotFree j.slots slot then j.slots.length + 1 else j.slots.length :=
    length_sparsePut slot r j.slots hr
  rw [if_neg (by simp [hf])] at hlen
  rw [lowNumberIs_iff] at h ⊢
  rw [hs, hc, hlen]
  omega

theorem length_sparseDrop_le {β : Type} (a : Nat) (t : List (Nat × β)) : (sparseDrop a t).length ≤ t.length := by
  induction t with
  | nil => exact Nat.le_refl _
  | cons p r ih =>
    unfold sparseDrop
    split
    · exact Nat.le_succ _
    · exact Nat.succ_le_succ ih

/-! ### A suspension ended -/

/-- The block that ends a suspension begins with the GAP entry; the counts are cleared and the condition is NORMAL (R43). -/
theorem endSuspension_journal (i : Fin 4) (s : State) (hf : findFilling s.journal.buffers = none) (hb : s.journal.blockSpent = false)
    (hn : s.journal.nextEntry < 4294967295) :
    (endSuspension i s).journal = { s.journal with
      cond := .normal, missedStrokes := 0, missedOther := 0, firstMissed := none
      buffers := s.journal.buffers.set i (.filling ((freshBlock s).add (gapEntry s)))
      nextBlock := succHold max32 s.journal.nextBlock
      blockSpent := decide (max32 ≤ s.journal.nextBlock)
      intervalTimer := some (s.now + s.journal.interval)
      nextEntry := s.journal.nextEntry + 1 } := by
  unfold endSuspension
  rw [if_neg (by simp [hb])]
  dsimp only
  rw [putEntry_with_room _ _ i (freshBlock s)]
  · simp [clearMissed, openBlock]
  · simp only [postBoth_keeps]
    exact findFilling_opened _ i (freshBlock s) hf
  · exact Nat.zero_lt_succ _
  · simpa [clearMissed, openBlock] using hn

/-- The end of a suspension is told on both links (R43). -/
theorem endSuspension_told (i : Fin 4) (s : State) (hb : s.journal.blockSpent = false) :
    latchHolds .journalSuspended (endSuspension i s).reporter.attn = true ∧
      latchHolds .journalSuspended (endSuspension i s).bench.attn = true := by
  unfold endSuspension
  rw [if_neg (by simp [hb])]
  exact FlagsKept.told (putEntry_flags _ _)

/-! ### A block write stored -/

/-- The state a block write stored leaves (R36, R39, R40, R43). -/
def storedState (i : Fin 4) (slot : Nat) (b : Block) (s : State) : State :=
  closingReport (resumeIfSuspended i (lowCheck s.journal (writeStored i slot b s)))

theorem exec_blockWriteComplete_stored (s : State) (i : Fin 4) (slot n : Nat) (b : Block) (hp : s.journal.port = .write i slot)
    (hb : s.journal.buffers.get i = .writing b n) : exec (.blockWriteComplete true) s = .next (storedState i slot b s) := by
  show Host.Outcome.next (endWrite true s) = _
  simp [endWrite, hp, hb, storedState]

section Stored

variable (i : Fin 4) (slot : Nat) (b : Block) (s : State)

/-- The journal before the end of a suspension. -/
theorem writeStored_journal : (writeStored i slot b s).journal = { s.journal with
    slots := sparsePut slot
      (.stored { seq := b.seq, session := b.session, count := b.entries.length, firstEntry := b.firstEntry }) s.journal.slots
    failures := 0, buffers := s.journal.buffers.set i .free, port := .idle } := by
  simp [writeStored]

theorem closingReport_journal (x : State) : (closingReport x).journal = x.journal := by simp

theorem lowCheck_journal (j : Journal) (x : State) : (lowCheck j x).journal = x.journal := by simp

theorem storedState_store : StoreKept (writeStored i slot b s) (storedState i slot b s) := afterStored_store _ _ _

/-- What a write stored leaves alone. -/
theorem storedState_frame : OutsideKept s (storedState i slot b s) ∧ (storedState i slot b s).ksu = s.ksu ∧
    (storedState i slot b s).chords = s.chords ∧ (storedState i slot b s).dict = s.dict ∧ (storedState i slot b s).lines = s.lines ∧
    (storedState i slot b s).feeds = s.feeds ∧ (storedState i slot b s).marks = s.marks ∧ (storedState i slot b s).cls = s.cls ∧
    (storedState i slot b s).trans = s.trans := by
  simp [storedState, writeStored, OutsideKept]

theorem storedState_memory : (storedState i slot b s).memory = s.memory.write slot b.bytes := by
  simp [storedState, writeStored]

theorem storedState_flags : FlagsKept (writeStored i slot b s) (storedState i slot b s) :=
  .after (closingReport_flags _) (.after (resumeIfSuspended_flags _ _) (lowCheck_flags _ _))

theorem storedState_low (hr : sparseRising s.journal.slots) (hf : slotFree s.journal.slots slot = true) :
    lowLatched (storedState i slot b s) =
      (lowLatched s || decide (freeSlots s.journal.slots = 65 + s.journal.failedClears)) := by
  have hstored : lowLatched (writeStored i slot b s) = lowLatched s := post_low _ _ _ (by decide)
  rw [storedState, closingReport_low, resumeIfSuspended_low, lowCheck_low_of_fall, hstored]
  exact lowNumberIs_put_free s.journal _ slot _ hr hf (by simp [writeStored]; rfl) (by simp [writeStored])

theorem storedState_session (h : s.session.st ≠ .closing) : (storedState i slot b s).session = s.session := by
  have hk : SessionKept s (storedState i slot b s) :=
    .after (closingReport_session _) (.after (resumeIfSuspended_session _ _) (.of_eq (by simp [writeStored])))
  exact hk.eq h

/-- Outside SUSPENDED the buffer is FREE and no block is opened (R36; log entry 41). -/
theorem storedState_of_not_suspended (h : s.journal.cond ≠ .suspended) :
    storedState i slot b s = closingReport (lowCheck s.journal (writeStored i slot b s)) := by
  have hc : (lowCheck s.journal (writeStored i slot b s)).journal.cond ≠ .suspended := by
    rwa [lowCheck_journal, writeStored_journal]
  rw [storedState, resumeIfSuspended, if_neg hc]

/-- The last block of a CLOSING session has been stored (R40, R65). -/
theorem storedState_standby (hs : s.session.st = .closing) (hc : s.journal.cond = .normal)
    (hb : ∀ j, j ≠ i → (s.journal.buffers.get j).code ≤ 1) : (storedState i slot b s).session.st = .standby := by
  have hset : buffersSettled (lowCheck s.journal (writeStored i slot b s)).journal.buffers = true := by
    rw [lowCheck_journal, writeStored_journal, buffersSettled_iff]
    intro j
    by_cases hj : i = j
    · subst hj
      simp [Buffer.code]
    · rw [quad_get_set_ne _ i j _ hj]
      exact hb j (Ne.symm hj)
  have hst : (lowCheck s.journal (writeStored i slot b s)).session.st = .closing := by simpa [writeStored] using hs
  rw [storedState_of_not_suspended i slot b s (by simp [hc]), closingReport, if_pos ⟨hst, .inr hset⟩]
  simp [toStandby]

/-- A buffer freed ends the suspension (R43). -/
theorem storedState_resumes (hc : s.journal.cond = .suspended) (hf : findFilling s.journal.buffers = none)
    (hb : s.journal.blockSpent = false) (hn : s.journal.nextEntry < 4294967295) :
    (storedState i slot b s).journal.cond = .normal ∧ latchHolds .journalSuspended (storedState i slot b s).reporter.attn = true ∧
      latchHolds .journalSuspended (storedState i slot b s).bench.attn = true ∧ (storedState i slot b s).journal.missedStrokes = 0 ∧
      (storedState i slot b s).journal.missedOther = 0 ∧
      (storedState i slot b s).journal.buffers.get i = .filling ((freshBlock s).add (gapEntry s)) := by
  have hj := (lowCheck_journal s.journal _).trans (writeStored_journal i slot b s)
  have e : storedState i slot b s = closingReport (endSuspension i (lowCheck s.journal (writeStored i slot b s))) := by
    rw [storedState, resumeIfSuspended, if_pos (by rw [hj]; exact hc)]
  have hbs : (lowCheck s.journal (writeStored i slot b s)).journal.blockSpent = false := by rw [hj]; exact hb
  have hsus := endSuspension_journal i (lowCheck s.journal (writeStored i slot b s))
    (by rw [hj]; exact findFilling_freed _ i hf) hbs (by rw [hj]; exact hn)
  have hblock : (freshBlock (lowCheck s.journal (writeStored i slot b s))).add (gapEntry (lowCheck s.journal (writeStored i slot b s))) =
      (freshBlock s).add (gapEntry s) := by
    simp [freshBlock, gapEntry, writeStored]
  obtain ⟨hrep, hben⟩ := endSuspension_told i (lowCheck s.journal (writeStored i slot b s)) hbs
  have hk := closingReport_flags (endSuspension i (lowCheck s.journal (writeStored i slot b s)))
  have hjt : (storedState i slot b s).journal = (endSuspension i (lowCheck s.journal (writeStored i slot b s))).journal := by
    rw [e]
    simp
  refine ⟨?_, ?_, ?_, ?_, ?_, ?_⟩
  · rw [hjt, hsus]
  · rw [e]
    exact hk.holds .reporter _ hrep
  · rw [e]
    exact hk.holds .bench _ hben
  · rw [hjt, hsus]
  · rw [hjt, hsus]
  · rw [hjt, hsus, hblock]
    exact quad_get_set_self _ _ _

end Stored

/-- Settles O20. -/
theorem writeCompletionStoresTheBlock : Obligations.WriteCompletionStoresTheBlock := by
  intro s i slot n b hp hb
  have hk := storedState_store i slot b s
  have hw := writeStored_journal i slot b s
  refine ⟨storedState i slot b s, exec_blockWriteComplete_stored s i slot n b hp hb, storedState_memory i slot b s, ?_, ?_, ?_, ?_,
    storedState_low i slot b s, fun hc => ?_, fun hc hf hs hn => ?_, storedState_standby i slot b s, storedState_session i slot b s,
    storedState_frame i slot b s⟩
  · rw [hk.slots, hw]
  · rw [hk.failures, hw]
  · rw [hk.port, hw]
  · exact (storedState_flags i slot b s).holds .reporter _ (by simp [writeStored, post, State.link, State.setLink])
  · rw [storedState_of_not_suspended i slot b s hc, closingReport_journal, lowCheck_journal, writeStored_journal]
  · obtain ⟨h1, h2, h3, h4, h5, h6⟩ := storedState_resumes i slot b s hc hf hs hn
    exact ⟨h1, h2, h3, h4, h5, _, h6, rfl, by simp [Block.add, freshBlock, gapEntry], rfl⟩

/-! ### A transfer that failed -/

/-- The second failure in a row makes the journal FAULTED (R37, R47). -/
theorem failureCheck_second (s : State) (h : 2 ≤ s.journal.failures) : failureCheck s = enterFault .writeFailures s := if_pos h

theorem failureCheck_first (s : State) (h : s.journal.failures < 2) : failureCheck s = s := if_neg (Nat.not_le.2 h)

/-- A fault leaves a response that stands on the reporter link (R38). -/
theorem enterFault_ready (c : FaultCause) (s : State) (r : Response) (h : s.reporter.exch = .ready r) :
    (enterFault c s).reporter.exch = .ready r := by
  have hpost : ∀ (l : Link) (n : Notice) (x : State), (post l n x).reporter.exch = x.reporter.exch := fun l n x => by
    cases l <;> rfl
  have hboth : ∀ (n : Notice) (x : State), (postBoth n x).reporter.exch = x.reporter.exch := fun n x => by
    rw [postBoth, hpost, hpost]
  have hreport : ∀ x : State, (closingReport x).reporter.exch = x.reporter.exch := fun x => by
    unfold closingReport
    split
    · exact hboth _ _
    · rfl
  have hcounts : (setFaulted c (faultCounts s)).reporter.exch = .ready r := by
    unfold faultCounts
    split
    · exact (hboth _ _).trans h
    · exact h
  have habandon : ∀ x : State, x.reporter.exch = .ready r → (abandonClear x).reporter.exch = .ready r := fun x hx => by
    unfold abandonClear
    split
    · rw [finish_ready]
      · exact hx
      · simp [State.link, hx]
    · exact hx
  unfold enterFault
  split
  · exact h
  · rw [hreport, hpost]
    exact habandon _ hcounts

theorem failureCheck_ready (s : State) (r : Response) (h : s.reporter.exch = .ready r) : (failureCheck s).reporter.exch = .ready r := by
  unfold failureCheck
  split
  · exact enterFault_ready _ s r h
  · exact h

theorem lowCheck_exch (b : Journal) (s : State) : (lowCheck b s).reporter.exch = s.reporter.exch := by
  unfold lowCheck
  split <;> rfl

/-! ### A block write failed -/

/-- The state a block write failed leaves (R37, R38, R39). -/
def failedState (i : Fin 4) (slot : Nat) (b : Block) (s : State) : State :=
  failureCheck (lowCheck s.journal (writeFailed i slot b s))

theorem exec_blockWriteComplete_failed (s : State) (i : Fin 4) (slot n : Nat) (b : Block) (hp : s.journal.port = .write i slot)
    (hb : s.journal.buffers.get i = .writing b n) : exec (.blockWriteComplete false) s = .next (failedState i slot b s) := by
  show Host.Outcome.next (endWrite false s) = _
  simp [endWrite, hp, hb, failedState]

section Failed

variable (i : Fin 4) (slot : Nat) (b : Block) (s : State)

/-- What a write failed leaves alone. -/
theorem failedState_frame : OutsideKept s (failedState i slot b s) ∧ (failedState i slot b s).ksu = s.ksu ∧
    (failedState i slot b s).chords = s.chords ∧ (failedState i slot b s).dict = s.dict ∧ (failedState i slot b s).lines = s.lines ∧
    (failedState i slot b s).feeds = s.feeds ∧ (failedState i slot b s).marks = s.marks ∧ (failedState i slot b s).cls = s.cls ∧
    (failedState i slot b s).trans = s.trans := by
  simp [failedState, writeFailed, OutsideKept]

theorem failedState_low (hr : sparseRising s.journal.slots) (hf : slotFree s.journal.slots slot = true) :
    lowLatched (failedState i slot b s) =
      (lowLatched s || decide (freeSlots s.journal.slots = 65 + s.journal.failedClears)) := by
  rw [failedState, failureCheck_low, lowCheck_low_of_fall]
  · rfl
  · exact lowNumberIs_put_free s.journal _ slot .bad hr hf rfl rfl

theorem failedState_session : SessionKept s (failedState i slot b s) :=
  .after (failureCheck_session _) (.of_eq (by simp [writeFailed]))

/-- The first failure: the buffer is QUEUED again at the head of the queue (R26, R37). -/
theorem failedState_first (h : s.journal.failures = 0) :
    failedState i slot b s = lowCheck s.journal (writeFailed i slot b s) :=
  failureCheck_first _ (by simp [writeFailed, h])

/-- The second failure: the journal is FAULTED (R37, R38). -/
theorem failedState_second (h : 1 ≤ s.journal.failures) :
    failedState i slot b s = enterFault .writeFailures (lowCheck s.journal (writeFailed i slot b s)) :=
  failureCheck_second _ (by simpa [writeFailed] using h)

end Failed

/-- Settles O21. -/
theorem writeFailureMarksTheSlotBad : Obligations.WriteFailureMarksTheSlotBad := by
  intro s i slot n b hp hb
  have hk : StoreKept (writeFailed i slot b s) (failedState i slot b s) := afterFailed_store _ _
  refine ⟨failedState i slot b s, exec_blockWriteComplete_failed s i slot n b hp hb, hk.slots, hk.failures, hk.port,
    failedState_low i slot b s, fun hw a ha => ?_, fun h0 => ?_, (failedState_session i slot b s).eq, fun h1 hc => ?_,
    failedState_frame i slot b s⟩
  · have hm : (failedState i slot b s).memory = s.memory.cut s.events slot b.bytes := by simp [failedState, writeFailed]
    rw [hm, read_cut_ne _ _ _ _ _ hw ha]
  · rw [failedState_first i slot b s h0]
    simp [writeFailed, h0]
  · rw [failedState_second i slot b s h1]
    have hnf : (lowCheck s.journal (writeFailed i slot b s)).journal.cond.isFaulted = false := by simpa [writeFailed] using hc
    obtain ⟨e1, e2, e3, -, e5⟩ := enterFault_journal .writeFailures _ hnf
    exact ⟨e1, e2, e5, by rw [e3]; simp [writeFailed]⟩

/-! ### A header clear -/

theorem exec_headerClearComplete (ok : Bool) (s : State) (slot seq : Nat) (hp : s.journal.port = .reporter (.clear slot seq)) :
    exec (.headerClearComplete ok) s = .next (if ok then lowCheck s.journal (clearDone slot s)
      else failureCheck (lowCheck s.journal (clearFailed slot s))) := by
  show Host.Outcome.next (endClear ok s) = _
  simp only [endClear, hp]

/-- A header clear done frees a slot at most, so JOURNAL_LOW is not posted (R39). -/
theorem lowCheck_clearDone (slot : Nat) (s : State) : lowCheck s.journal (clearDone slot s) = clearDone slot s := by
  refine if_neg ?_
  rintro ⟨h65, h64⟩
  have hlen := length_sparseDrop_le slot s.journal.slots
  have hs : (clearDone slot s).journal.slots = sparseDrop slot s.journal.slots := by simp [clearDone]
  have hc : (clearDone slot s).journal.failedClears = s.journal.failedClears := by simp [clearDone]
  rw [lowNumberIs_iff] at h65 h64
  rw [hs, hc] at h64
  simp only [lowSlots] at h65 h64
  omega

theorem clearDone_eq (slot : Nat) (s : State) (code tag : Byte) (hx : s.reporter.exch = .executing code tag) :
    clearDone slot s = { s with
      memory := s.memory.write slot (clearedHeader (s.memory.read slot))
      journal := { s.journal with slots := sparseDrop slot s.journal.slots, failures := 0, port := .idle }
      reporter := { s.reporter with exch := .ready { code := code, tag := tag, status := .ok, payload := [0#8] } } } :=
  finish_executing _ _ _ _ _ hx

theorem clearFailed_eq (slot : Nat) (s : State) (code tag : Byte) (hx : s.reporter.exch = .executing code tag) :
    clearFailed slot s = { s with
      memory := s.memory.cut s.events slot (List.replicate headerBytes 0#8)
      events := s.events + 1
      journal := { s.journal with
        slots := sparsePut slot .bad s.journal.slots, failedClears := s.journal.failedClears + 1
        failures := s.journal.failures + 1, port := .idle }
      reporter := { s.reporter with exch := .ready { code := code, tag := tag, status := .ok, payload := [1#8] } } } :=
  finish_executing _ _ _ _ _ hx

/-- Settles O23. -/
theorem headerClearFreesTheSlot : Obligations.HeaderClearFreesTheSlot := by
  intro s slot seq code tag hp hx
  constructor
  · refine ⟨clearDone slot s, ?_, ?_⟩
    · rw [exec_headerClearComplete true s slot seq hp, if_pos rfl, lowCheck_clearDone]
    · rw [clearDone_eq slot s code tag hx]
      exact ⟨rfl, rfl, rfl, rfl⟩
  · have hcl := clearFailed_eq slot s code tag hx
    have hj : (clearFailed slot s).journal = { s.journal with
        slots := sparsePut slot .bad s.journal.slots, failedClears := s.journal.failedClears + 1
        failures := s.journal.failures + 1, port := .idle } := by rw [hcl]
    have hk : StoreKept (clearFailed slot s) (failureCheck (lowCheck s.journal (clearFailed slot s))) := afterFailed_store _ _
    refine ⟨failureCheck (lowCheck s.journal (clearFailed slot s)), exec_headerClearComplete false s slot seq hp, ?_, ?_, ?_, ?_, ?_,
      fun hr hf => ?_, fun hw a ha => ?_, fun h1 hc => ?_, ?_, ?_⟩
    · rw [hk.slots, hj]
    · rw [hk.failures, hj]
    · rw [hk.port, hj]
    · refine failureCheck_ready _ _ ?_
      rw [lowCheck_exch, hcl]
    · rw [hk.failedClears, hj]
    · have hl : lowLatched (clearFailed slot s) = lowLatched s := by rw [hcl]; rfl
      show lowLatched _ = _
      rw [failureCheck_low, lowCheck_low_of_fall, hl]
      · rfl
      · exact lowNumberIs_clear_failed s.journal _ slot .bad hr hf (by rw [hj]) (by rw [hj])
    · have hm : (failureCheck (lowCheck s.journal (clearFailed slot s))).memory =
          s.memory.cut s.events slot (List.replicate headerBytes 0#8) := by
        simp [clearFailed]
      rw [hm, read_cut_ne _ _ _ _ _ hw ha]
    · have h2 : 2 ≤ (lowCheck s.journal (clearFailed slot s)).journal.failures := by simpa [clearFailed] using h1
      have hnf : (lowCheck s.journal (clearFailed slot s)).journal.cond.isFaulted = false := by simpa [clearFailed] using hc
      rw [failureCheck_second _ h2]
      exact (enterFault_journal .writeFailures _ hnf).1
    · exact (SessionKept.after (failureCheck_session _) (.of_eq (by simp [clearFailed]))).eq
    · simp [OutsideKept, clearFailed]

end Sys2Proof.Machine

/-! The tick (O2), the release of RSTN (O7) and the fetch of a response (O54). -/

namespace Sys2Proof.Machine

/-! ### The tick and the release of RSTN -/

/-- The states in which the session clock runs (R58). -/
theorem clockRuns_iff (st : SessState) : st.clockRuns = true ↔ st = .live ∨ st = .recess ∨ st = .closing := by
  cases st <;> simp [SessState.clockRuns]

/-- Settles O2. -/
theorem emptyQueuePassesOneMillisecond : Obligations.EmptyQueuePassesOneMillisecond := by
  intro s hs
  simp only [step, hs, tick, clockRuns_iff, succHold]

theorem exec_rstnRelease (s : State) : exec .rstnRelease s = .next (rstnReleased s) := rfl

/-- Settles O7. -/
theorem rstnReleaseSamplesSbarAndGate : Obligations.RstnReleaseSamplesSbarAndGate := by
  refine fun s => ⟨fun h => ?_, fun h => ?_⟩
  · rw [exec_rstnRelease, rstnReleased, if_pos h, ClassCtl.atReset, effectiveOf_opn]
    rfl
  · rw [exec_rstnRelease, rstnReleased, if_neg (by simp [h])]

/-! ### A fetch -/

theorem exec_fetch (l : Link) (n : Nat) (s : State) : exec (.fetch l n) s = .next (fetched l n s) := rfl

section Fetch

variable (l : Link) (n : Nat) (s : State) (hn : 0 < n)
include hn

/-- While RSTN is held a fetch sends zeros (R214). -/
theorem fetched_held (hr : s.pins.rstnHeld = true) : fetched l n s = sent l (List.replicate n 0#8) s := by
  simp [fetched, hr, Nat.ne_of_gt hn]

/-- A link that is not READY sends zeros (R200). -/
theorem fetched_unready (hr : s.pins.rstnHeld = false) (hx : ∀ r, (s.link l).exch ≠ .ready r) :
    fetched l n s = sent l (List.replicate n 0#8) s := by
  cases h : (s.link l).exch with
  | idle => simp [fetched, hr, Nat.ne_of_gt hn, h]
  | executing code tag => simp [fetched, hr, Nat.ne_of_gt hn, h]
  | ready r => exact absurd h (hx r)

/-- A READY link sends its response, and is read whole where the fetch reaches the response's end (R204). -/
theorem fetched_ready (r : Response) (hr : s.pins.rstnHeld = false) (hx : (s.link l).exch = .ready r) :
    fetched l n s = if r.size ≤ n then resetIfArmed l (readWhole l (fetchBytes (s.link l) r n) s)
      else sent l (fetchBytes (s.link l) r n) s := by
  simp [fetched, hr, Nat.ne_of_gt hn, hx]

end Fetch

/-- A fetch that stops within the response sends its first bytes. -/
theorem fetchBytes_partial (k : LinkState) (r : Response) (n : Nat) (h : n < r.size) :
    fetchBytes k r n = (r.bytes (k.attn ≠ 0) k.discard).take n :=
  List.take_append_of_le_length (by simpa using h.le)

/-- Only a fetch on the reporter link, and after a Reset Part was taken, brings a reset (R68). -/
theorem resetIfArmed_unarmed (l : Link) (s : State) (h : l = .bench ∨ s.session.resetPartDue = none) : resetIfArmed l s = s := by
  refine if_neg ?_
  rintro ⟨hl, hd⟩
  rcases h with h | h
  · simp [h] at hl
  · simp [h] at hd

/-- Settles O54, by the link's exchange state and how far the fetch reaches. -/
theorem fetchSendsTheResponse : Obligations.FetchSendsTheResponse := by
  refine fun l n s hn => ⟨fun hr => ?_, fun r hr hx hle ha => ?_, fun r hr hx hlt => ?_, fun hr hx => ?_, fun r hr hx hle ha => ?_⟩
  · rw [exec_fetch, fetched_held l n s hn hr, sent]
  · rw [exec_fetch, fetched_ready l n s hn r hr hx, if_pos hle, resetIfArmed_unarmed l _ (by simpa using ha),
      fetchBytes_whole _ r n hle, readWhole]
  · rw [exec_fetch, fetched_ready l n s hn r hr hx, if_neg hlt.not_ge, fetchBytes_partial _ r n hlt, sent]
  · rw [exec_fetch, fetched_unready l n s hn hr hx, sent]
  · exact ⟨_, exec_fetch_armed s n r hr ha hx hle, by simp [Session.atStart, LinkState.atReset]⟩

end Sys2Proof.Machine

/-! A latched flag stays through every command but a Read Attention and the resets (O58): what each command leaves of the latch sets. -/

namespace Sys2Proof.Machine

/-! ### Keys and chords -/

theorem takeSample_flags (n : Nat) (s : State) : FlagsKept s (takeSample n s) := by
  have h1 : FlagsKept s (stepSample n s).1 := .of_attn (by simp) (by simp)
  have h2 := reportMove_flags s.ksu.scanPos (stepSample n s).2 (stepSample n s).1
  exact (h1.trans h2).trans (.of_attn (by simp [takeSample]) (by simp [takeSample]))

theorem holdExpiry_flags (s : State) : FlagsKept s (holdExpiry s) := by
  unfold holdExpiry
  repeat' split
  · exact .refl s
  · exact .after (closeChord_flags _ _) (.after (post_flags _ _ _) (.of_attn rfl rfl))
  · exact .refl s

theorem zeroingDone_flags (s : State) : FlagsKept s (zeroingDone s) := by
  unfold zeroingDone settleZeroing
  repeat' split
  · exact .after (post_flags _ _ _) (.of_attn rfl rfl)
  · exact .refl s
  · exact .refl s

/-! ### The journal -/

theorem startWrite_flags (s : State) : FlagsKept s (startWrite s) := by
  unfold startWrite
  repeat' split
  all_goals exact .of_attn rfl rfl

theorem startReporterTransfer_flags (s : State) : FlagsKept s (startReporterTransfer s) := by
  unfold startReporterTransfer
  repeat' split
  all_goals exact .of_attn rfl rfl

theorem writeStored_flags (i : Fin 4) (slot : Nat) (b : Block) (s : State) : FlagsKept s (writeStored i slot b s) :=
  .after (post_flags _ _ _) (.of_attn rfl rfl)

theorem endWrite_flags (ok : Bool) (s : State) : FlagsKept s (endWrite ok s) := by
  rcases endWrite_cases ok s with e | ⟨i, slot, b, n, -, -, e⟩ <;> rw [e]
  · exact .refl s
  · split
    · exact .after (closingReport_flags _) (.after (resumeIfSuspended_flags _ _) (.after (lowCheck_flags _ _) (writeStored_flags i slot b s)))
    · exact .after (failureCheck_flags _) (.after (lowCheck_flags _ _) (.of_attn rfl rfl))

theorem endRead_flags (r : SlotRead) (s : State) : FlagsKept s (endRead r s) := by
  unfold endRead
  split
  · split
    · exact .after (finish_flags _ _ _ _) (.of_attn rfl rfl)
    · exact .after (finish_flags _ _ _ _) (.of_attn rfl rfl)
  · exact .refl s

theorem endClear_flags (ok : Bool) (s : State) : FlagsKept s (endClear ok s) := by
  unfold endClear clearDone clearFailed
  repeat' split
  · exact .after (lowCheck_flags _ _) (.after (finish_flags _ _ _ _) (.of_attn rfl rfl))
  · exact .after (failureCheck_flags _) (.after (lowCheck_flags _ _) (.after (finish_flags _ _ _ _) (.of_attn rfl rfl)))
  · exact .refl s

theorem intervalExpiry_flags (s : State) : FlagsKept s (intervalExpiry s) := by
  unfold intervalExpiry
  split
  · exact closeFilling_flags _ s
  · exact .refl s

theorem recoverSlot_flags (r : RecoveryRead) (s : State) : FlagsKept s (recoverSlot r s) := by
  unfold recoverSlot
  repeat' split
  all_goals exact .of_attn rfl rfl

theorem finishRecovery_flags (s : State) : FlagsKept s (finishRecovery s) := by
  unfold finishRecovery
  split
  · exact .after (postBoth_flags _ _) (.of_attn rfl rfl)
  · exact .refl s

/-! ### The Translator, Class Control and the feeds -/

theorem buildDone_flags (s : State) : FlagsKept s (buildDone s) := by
  unfold buildDone
  split
  · exact .after (post_flags _ _ _) (.of_attn rfl rfl)
  · exact .refl s

theorem takeNext_flags (s : State) : FlagsKept s (takeNext s) := by
  unfold takeNext
  split
  · exact .refl s
  · exact .after (chooseAll_flags _) (.after (takeStroke_flags _ _) (.of_attn rfl rfl))

theorem resolutionExpired_flags (s : State) : FlagsKept s (resolutionExpired s) := by
  unfold resolutionExpired
  split
  · exact .after (chooseAll_flags _) ((pass_flags true true _ s).trans (.of_attn rfl rfl))
  · exact .refl s

theorem tiersChanged_flags (s : State) : FlagsKept s (tiersChanged s) := by
  unfold tiersChanged
  split
  · exact .refl s
  · exact .after (chooseAll_flags _) (.after (setTimer_flags _ _) (.after (pass_flags _ _ _ _) (.of_attn rfl rfl)))

theorem sbarChanged_flags (high : Bool) (s : State) : FlagsKept s (sbarChanged high s) := by
  unfold sbarChanged followSbar
  dsimp only
  repeat' split
  · exact .refl s
  · exact .of_attn rfl rfl
  · exact .of_attn rfl rfl
  · exact .after (takeSbar_flags _) (.of_attn rfl rfl)
  · exact .of_attn rfl rfl

theorem deglitchExpired_flags (s : State) : FlagsKept s (deglitchExpired s) := by
  unfold deglitchExpired
  split
  · exact takeSbar_flags s
  · exact .refl s

theorem rdyAsserted_flags (f : Fin 4) (s : State) : FlagsKept s (rdyAsserted f s) := by
  unfold rdyAsserted
  refine .after (choose_flags _ _) (.after (refreshHealth_flags _ _) ?_)
  split
  · exact .after (enterByHold_flags _ _) (.of_attn rfl rfl)
  · exact .of_attn rfl rfl

theorem rdyChanged_flags (f : Fin 4) (high : Bool) (s : State) : FlagsKept s (rdyChanged f high s) := by
  unfold rdyChanged
  repeat' split
  · exact .refl s
  · exact .after (rdyAsserted_flags _ _) (.of_attn rfl rfl)
  · exact .of_attn rfl rfl

theorem gateChanged_flags (high : Bool) (s : State) : FlagsKept s (gateChanged high s) := by
  unfold gateChanged
  dsimp only
  split
  · exact .refl s
  · split
    · exact .of_attn rfl rfl
    · refine .after (holdChanged_flags _ _) ?_
      split
      · exact .of_attn rfl rfl
      · exact .after (postBoth_flags _ _) (.of_attn rfl rfl)

theorem frameDone_flags (f : Fin 4) (s : State) : FlagsKept s (frameDone f s) := by
  unfold frameDone
  dsimp only
  repeat' split
  · exact .refl s
  · exact .after (choose_flags _ _) (.of_attn rfl rfl)
  · exact .after (choose_flags _ _) (.of_attn rfl rfl)
  · exact .after (endTest_flags _ _ _) (.of_attn rfl rfl)
  · exact .after (becomeOff_flags _ _) (.of_attn rfl rfl)
  · exact .after (endTest_flags _ _ _) (.of_attn rfl rfl)
  · exact .after (choose_flags _ _) (.of_attn rfl rfl)
  · exact .of_attn rfl rfl
  · exact .of_attn rfl rfl

theorem idleExpired_flags (f : Fin 4) (s : State) : FlagsKept s (idleExpired f s) := by
  unfold idleExpired
  dsimp only
  split
  · exact .after (choose_flags _ _) (.of_attn rfl rfl)
  · exact .refl s

theorem stallExpired_flags (f : Fin 4) (s : State) : FlagsKept s (stallExpired f s) := by
  unfold stallExpired
  dsimp only
  repeat' split
  · exact .after (refreshHealth_flags _ _) (.of_attn rfl rfl)
  · exact .after (refreshHealth_flags _ _) (.of_attn rfl rfl)
  · exact endTest_flags _ _ s
  · exact .refl s
  · exact .refl s

/-! ### The links and the release of RSTN -/

theorem presenceExpired_flags (l : Link) (s : State) : FlagsKept s (presenceExpired l s) := by
  have h : FlagsKept s (post (otherLink l) (presenceNotice l) (s.setLink l { s.link l with present := false, timer := none })) :=
    .after (post_flags _ _ _) (setLink_flags l _ s rfl)
  unfold presenceExpired losePresence
  split
  · cases l with
    | reporter => exact h.trans (discardGroup_flags _)
    | bench => exact h
  · exact .refl s

theorem frameMalformed_flags (l : Link) (bs : List Byte) (s : State) : FlagsKept s (frameMalformed l bs s) := by
  unfold frameMalformed
  repeat' split
  · exact .refl s
  · exact writeOver_flags l s
  · exact (writeOver_flags l s).trans (respond_flags _ _ _)
  · exact (writeOver_flags l s).trans (discardFrame_flags _ _)

theorem frameThrownAway_flags (l : Link) (bs : List Byte) (s : State) : FlagsKept s (frameThrownAway l bs s) := by
  unfold frameThrownAway
  repeat' split
  · exact .refl s
  · exact writeOver_flags l s
  · exact .refl s
  · exact (writeOver_flags l s).trans (discardFrame_flags _ _)
  · exact (touchPresence_flags l s).trans (discardFrame_flags _ _)

theorem frameUnknown_flags (l : Link) (code tag : Byte) (s : State) : FlagsKept s (frameUnknown l code tag s) := by
  unfold frameUnknown
  dsimp only
  repeat' split
  · exact .refl s
  · exact writeOver_flags l s
  · exact (touchPresence_flags l s).trans (respond_flags _ _ _)
  · exact (touchPresence_flags l s).trans (discardFrame_flags _ _)

theorem rstnReleased_flags (s : State) : FlagsKept s (rstnReleased s) := by
  unfold rstnReleased
  split <;> exact .of_attn rfl rfl

/-- A fetch empties no latch set where it can bring no reset (R68, R204). -/
theorem fetched_flags (l : Link) (n : Nat) (s : State) (h : s.session.resetPartDue = none) : FlagsKept s (fetched l n s) := by
  have hsent : ∀ bs, FlagsKept s (sent l bs s) := fun bs => setLink_flags l _ s rfl
  unfold fetched
  dsimp only
  repeat' split
  · exact .refl s
  · exact hsent _
  · rw [resetIfArmed_unarmed l _ (.inr (by simpa using h))]
    exact setLink_flags l _ s rfl
  · exact hsent _
  · exact hsent _

/-! ### The requests -/

/-- A block's answer leaves every latched flag. -/
def BlockLatched {α : Type} (block : α → State → Reply) : Prop := ∀ a s, FlagsKept s (block a s).state

theorem deliver_flags (l : Link) (code tag : Byte) (y : Reply) : FlagsKept y.state (deliver l code tag y) := by
  cases y with
  | done st p x => exact respond_flags l _ x
  | wait x => exact setLink_flags l _ x rfl

theorem answer_flags {α : Type} (l : Link) (r : Req) (p : Payload α) {block : α → State → Reply} (hb : BlockLatched block) (s : State) :
    FlagsKept s (answer l r p block s).state := by
  unfold answer
  repeat' split
  · exact .refl s
  · exact .refl s
  · exact .refl s
  · exact hb _ s

/-- A request whose block leaves every latched flag leaves it, be it taken, refused or discarded. -/
theorem serve_flags {α : Type} (l : Link) (tag : Byte) (r : Req) (p : Payload α) {block : α → State → Reply} (hb : BlockLatched block)
    (s : State) : FlagsKept s (serve l tag r p block s) := by
  unfold serve
  dsimp only
  repeat' split
  · exact writeOver_flags l s
  · exact (touchPresence_flags l s).trans ((answer_flags l r p hb _).trans (deliver_flags _ _ _ _))
  · exact (touchPresence_flags l s).trans (discardFrame_flags _ _)

theorem readLines_latched : BlockLatched readLines := fun a s => by
  unfold readLines
  split <;> exact .refl s

theorem applyMark_flags (m : Mark) (s : State) : FlagsKept s (applyMark m s) :=
  .after (post_flags _ _ _) (.after (append_flags _ _) (.of_attn rfl rfl))

theorem setMark_latched (l : Link) : BlockLatched (setMark l) := fun a s => by
  unfold setMark setMarkOn
  dsimp only
  repeat' split
  all_goals first | exact .refl s | exact applyMark_flags _ s

theorem removeMark_latched (l : Link) : BlockLatched (removeMark l) := fun a s => by
  unfold removeMark
  repeat' split
  all_goals first | exact .refl s | exact .after (post_flags _ _ _) (.after (append_flags _ _) (.of_attn rfl rfl))

theorem listMarks_latched : BlockLatched listMarks := fun a s => by
  unfold listMarks
  split <;> exact .refl s

theorem setConditioning_latched : BlockLatched setConditioning := fun a s => by
  unfold setConditioning
  repeat' split
  all_goals exact .of_attn rfl rfl

theorem setTiming_latched : BlockLatched setTiming := fun a s => by
  unfold setTiming
  repeat' split
  all_goals exact .of_attn rfl rfl

theorem zeroKeys_latched : BlockLatched zeroKeys := fun a s => by
  unfold zeroKeys
  split <;> exact .of_attn rfl rfl

theorem beginLoad_latched : BlockLatched beginLoad := fun a s => by
  unfold beginLoad
  repeat' split
  all_goals exact .of_attn rfl rfl

theorem loadEntries_latched : BlockLatched loadEntries := fun a s => by
  unfold loadEntries
  repeat' split
  all_goals exact .of_attn rfl rfl

theorem endLoad_latched : BlockLatched endLoad := fun a s => by
  unfold endLoad
  repeat' split
  all_goals exact .of_attn rfl rfl

theorem openStaged_latched : BlockLatched openStaged := fun a s => by
  unfold openStaged
  repeat' split
  all_goals exact .of_attn rfl rfl

theorem stageDefine_latched : BlockLatched stageDefine := fun a s => by
  unfold stageDefine stageChange
  repeat' split
  all_goals exact .of_attn rfl rfl

theorem stageRemove_latched : BlockLatched stageRemove := fun a s => by
  unfold stageRemove stageChange
  repeat' split
  all_goals exact .of_attn rfl rfl

theorem applyGroup_flags (g : List Staged) (s : State) : FlagsKept s (applyGroup g s) := by
  unfold applyGroup
  exact .after (.of_attn rfl rfl) (.after (append_flags _ _) (.of_attn rfl rfl))

theorem commitGroup_latched : BlockLatched commitGroup := fun a s => by
  unfold commitGroup
  dsimp only
  repeat' split
  · exact .refl s
  · exact .refl s
  · exact applyGroup_flags _ s

theorem abandonGroup_latched : BlockLatched abandonGroup := fun a s => by
  unfold abandonGroup
  split <;> exact .of_attn rfl rfl

theorem clearJob_latched : BlockLatched clearJob := fun a s => by
  unfold clearJob
  repeat' split
  all_goals exact .of_attn rfl rfl

theorem lookUp_latched : BlockLatched lookUp := fun a s => by
  unfold lookUp
  repeat' split
  all_goals exact .refl s

theorem readBlock_latched : BlockLatched readBlock := fun a s => by
  unfold readBlock
  repeat' split
  all_goals exact .of_attn rfl rfl

theorem releaseBlock_latched : BlockLatched releaseBlock := fun a s => by
  unfold releaseBlock
  repeat' split
  all_goals exact .of_attn rfl rfl

theorem closeBlock_latched : BlockLatched closeBlock := fun a s => by
  unfold closeBlock
  repeat' split
  · exact .refl s
  · exact .refl s
  · exact closeFilling_flags _ s

theorem applyEdit_flags (l : Line) (text : List Byte) (s : State) : FlagsKept s (applyEdit l text s) := by
  unfold applyEdit
  dsimp only
  refine .after (chooseAll_flags _) (.after (post_flags _ _ _) ?_)
  have h : FlagsKept s (reviseMarks l.serial (editNotice l.serial
      (setRecords (updateLine l.serial (fun x => x.edit text) s.lines.records) s))) :=
    .after (reviseMarks_flags _ _) (.after (editNotice_flags _ _) (.of_attn rfl rfl))
  split
  · exact h.trans (append_flags _ _)
  · exact h

theorem editLine_latched : BlockLatched editLine := fun a s => by
  unfold editLine
  repeat' split
  all_goals first | exact .refl s | exact applyEdit_flags _ _ s

theorem setFeed_latched : BlockLatched setFeed := fun a s => by
  unfold setFeed
  repeat' split
  all_goals exact .of_attn rfl rfl

theorem enableFeed_latched : BlockLatched enableFeed := fun a s => by
  unfold enableFeed enabled
  repeat' split
  all_goals first | exact .refl s | exact .after (choose_flags _ _) (.after (refreshHealth_flags _ _) (.of_attn rfl rfl))

theorem disabled_flags (f : Fin 4) (s : State) : FlagsKept s (disabled f s) := by
  unfold disabled
  repeat' split
  · exact becomeStopping_flags f s
  · exact endTest_flags f _ s
  · exact becomeOff_flags f s

theorem disableFeed_latched : BlockLatched disableFeed := fun a s => by
  unfold disableFeed
  repeat' split
  · exact .refl s
  · exact .refl s
  · exact disabled_flags _ s

theorem testFeed_latched : BlockLatched testFeed := fun a s => by
  unfold testFeed beginTest
  repeat' split
  · exact .refl s
  · exact .refl s
  · exact .after (choose_flags _ _) (.after (refreshHealth_flags _ _) (.of_attn rfl rfl))

theorem setClass_latched : BlockLatched setClass := fun a s => by
  unfold setClass
  dsimp only
  repeat' split
  · exact .refl s
  · exact .refl s
  · exact .refl s
  · exact .after (reformClass_flags _ _) (.of_attn rfl rfl)

theorem setHold_flags (on : Bool) (s : State) (f : Fin 4) : FlagsKept s (setHold on s f) := by
  unfold setHold
  split
  · exact .refl s
  · exact .after (holdChanged_flags _ _) (.of_attn rfl rfl)

theorem holdOrRelease_latched (on : Bool) : BlockLatched (holdOrRelease on) := fun a s => by
  unfold holdOrRelease
  repeat' split
  · exact .refl s
  · exact .refl s
  · exact foldl_flags _ (setHold_flags on) _ s

/-! ### The session requests -/

theorem emptyTranscript_flags (s : State) : FlagsKept s (emptyTranscript s) :=
  .after (feedsAtOpen_flags _) (.of_attn rfl rfl)

theorem opened_flags (s : State) : FlagsKept s (opened s) :=
  have hready : FlagsKept s (openClass (newSession (takeAllHanded s.trans.handed.length s))) :=
    (takeAllHanded_flags _ s).trans (.of_attn rfl rfl)
  have hentered := hready.trans (append_flags _ _)
  have htold := FlagsKept.after (postBoth_flags .sessionState _) (hentered.trans (.of_attn rfl rfl))
  .after (chooseAll_flags _) (.after (emptyTranscript_flags _) (htold.trans (.of_attn rfl rfl)))

theorem openSession_latched : BlockLatched openSession := fun a s => by
  unfold openSession
  split
  · exact .refl s
  · exact opened_flags s

theorem recessed_flags (s : State) : FlagsKept s (recessed s) :=
  .after (departed_flags _ _) (.after (postBoth_flags _ _) (.after (askClose_flags _ _) (.after (append_flags _ _) (.of_attn rfl rfl))))

theorem recess_latched : BlockLatched recess := fun a s => by
  unfold recess
  split
  · exact recessed_flags s
  · exact .refl s
  · exact .refl s

theorem resume_latched : BlockLatched resume := fun a s => by
  have h : FlagsKept s (resumed s) :=
    .after (resumed_flags s) (.after (postBoth_flags _ _) ((append_flags (sessionEntry .resume s) s).trans (.of_attn rfl rfl)))
  unfold resume
  repeat' split
  · exact .refl s
  · exact h
  · exact .refl s
  · exact .refl s

theorem closeSession_latched : BlockLatched closeSession := fun a s => by
  have h : FlagsKept s (closed s) :=
    .after (closed_flags s) (.after (discardGroup_flags _) (.after (postBoth_flags _ _)
      (.after (askClose_flags _ _) (.after (append_flags _ _) (.of_attn rfl rfl)))))
  unfold closeSession
  repeat' split
  · exact h
  · exact .refl s
  · exact h
  · exact .refl s
  · exact .refl s

/-! ### Every command -/

/-- A command that is no reset and no Read Attention empties no latch set, and of the fetches none does while no Reset Part is taken. -/
theorem exec_flags (c : Instr) (s : State) (h : mayClearFlags c = false ∨ (∃ l n, c = .fetch l n) ∧ s.session.resetPartDue = none) :
    NextMeets (FlagsKept s) (exec c s) := by
  cases c with
  | powerOn => simp [mayClearFlags] at h
  | rstnAssert => simp [mayClearFlags] at h
  | resetPartTimeout => simp [mayClearFlags] at h
  | readAttention l tag p => simp [mayClearFlags] at h
  | fetch l n => exact fetched_flags l n s (by simpa [mayClearFlags] using h)
  | rstnRelease => exact rstnReleased_flags s
  | recoverySlotRead r => exact recoverSlot_flags r s
  | recoveryComplete => exact finishRecovery_flags s
  | keySample raw =>
    show FlagsKept s (if s.pins.rstnHeld then s else takeSample raw.toNat s)
    split
    · exact .refl s
    · exact takeSample_flags _ s
  | holdTimerExpiry => exact holdExpiry_flags s
  | zeroingComplete => exact zeroingDone_flags s
  | blockIntervalExpiry => exact intervalExpiry_flags s
  | blockWriteStart => exact startWrite_flags s
  | reporterTransferStart => exact startReporterTransfer_flags s
  | blockWriteComplete ok => exact endWrite_flags ok s
  | blockReadComplete r => exact endRead_flags r s
  | headerClearComplete ok => exact endClear_flags ok s
  | buildComplete => exact buildDone_flags s
  | strokeHandover => exact takeNext_flags s
  | resolutionTimerExpiry => exact resolutionExpired_flags s
  | tierChangeNotice => exact tiersChanged_flags s
  | sbarChange high => exact sbarChanged_flags high s
  | deglitchExpiry => exact deglitchExpired_flags s
  | fnrdyChange f high => exact rdyChanged_flags f high s
  | fgate3Change high => exact gateChanged_flags high s
  | frameComplete f => exact frameDone_flags f s
  | idleTimerExpiry f => exact idleExpired_flags f s
  | stallTimerExpiry f => exact stallExpired_flags f s
  | presenceTimerExpiry l => exact presenceExpired_flags l s
  | frameError l bytes => exact frameMalformed_flags l bytes s
  | frameDiscarded l bytes => exact frameThrownAway_flags l bytes s
  | unknownRequest l code tag => exact frameUnknown_flags l code tag s
  | getStatus l tag p => exact serve_flags l tag _ p (block := getStatus) (fun _ x => .refl x) s
  | readLines l tag p => exact serve_flags l tag _ p readLines_latched s
  | setMark l tag p => exact serve_flags l tag _ p (setMark_latched l) s
  | removeMark l tag p => exact serve_flags l tag _ p (removeMark_latched l) s
  | listMarks l tag p => exact serve_flags l tag _ p listMarks_latched s
  | readFeedHealth l tag p => exact serve_flags l tag _ p (block := readHealth l) (fun _ x => .refl x) s
  | setTranslationParameters l tag p => exact serve_flags l tag _ p (fun _ _ => .of_attn rfl rfl) s
  | setKeyConditioning l tag p => exact serve_flags l tag _ p setConditioning_latched s
  | setChordTiming l tag p => exact serve_flags l tag _ p setTiming_latched s
  | zeroKeys l tag p => exact serve_flags l tag _ p zeroKeys_latched s
  | readKeyDepths l tag p => exact serve_flags l tag _ p (block := readDepths) (fun _ x => .refl x) s
  | beginMainLoad l tag p => exact serve_flags l tag _ p beginLoad_latched s
  | loadEntries l tag p => exact serve_flags l tag _ p loadEntries_latched s
  | endMainLoad l tag p => exact serve_flags l tag _ p endLoad_latched s
  | openGroup l tag p => exact serve_flags l tag _ p openStaged_latched s
  | stageDefine l tag p => exact serve_flags l tag _ p stageDefine_latched s
  | stageRemove l tag p => exact serve_flags l tag _ p stageRemove_latched s
  | commitGroup l tag p => exact serve_flags l tag _ p commitGroup_latched s
  | abandonGroup l tag p => exact serve_flags l tag _ p abandonGroup_latched s
  | clearJobTier l tag p => exact serve_flags l tag _ p clearJob_latched s
  | lookUp l tag p => exact serve_flags l tag _ p lookUp_latched s
  | openSession l tag p => exact serve_flags l tag _ p openSession_latched s
  | recess l tag p => exact serve_flags l tag _ p recess_latched s
  | resume l tag p => exact serve_flags l tag _ p resume_latched s
  | closeSession l tag p => exact serve_flags l tag _ p closeSession_latched s
  | resetPart l tag p => exact serve_flags l tag _ p (block := resetPart) (fun _ _ => .of_attn rfl rfl) s
  | readJournalBlock l tag p => exact serve_flags l tag _ p readBlock_latched s
  | releaseJournalBlock l tag p => exact serve_flags l tag _ p releaseBlock_latched s
  | closeJournalBlock l tag p => exact serve_flags l tag _ p closeBlock_latched s
  | journalSummary l tag p => exact serve_flags l tag _ p (block := readSummary) (fun _ x => .refl x) s
  | editLine l tag p => exact serve_flags l tag _ p editLine_latched s
  | setFeed l tag p => exact serve_flags l tag _ p setFeed_latched s
  | enableFeed l tag p => exact serve_flags l tag _ p enableFeed_latched s
  | disableFeed l tag p => exact serve_flags l tag _ p disableFeed_latched s
  | testFeed l tag p => exact serve_flags l tag _ p testFeed_latched s
  | setClass l tag p => exact serve_flags l tag _ p setClass_latched s
  | holdFeeds l tag p => exact serve_flags l tag _ p (holdOrRelease_latched true) s
  | releaseFeeds l tag p => exact serve_flags l tag _ p (holdOrRelease_latched false) s

/-- Settles O58. -/
theorem latchedFlagsAreNeverLost : Obligations.LatchedFlagsAreNeverLost := by
  intro c s t h e
  have k := exec_flags c s h
  rwa [e] at k

end Sys2Proof.Machine

/-! What stands through the strokes taken before an Open Session, and a feed's choice over an empty Line Store. -/

namespace Sys2Proof.Machine

/-! ### What the text of a transcript does not touch -/

/-- A feed's context but for what the lines, their edits and their reclaims make of it. -/
def Feed.standing (c : Feed) : Feed :=
  { c with lowWater := 0, announced := 0, withheld := false, outOfStep := false, edits := [], health := .notEnabled }

/-- The settings of the Line Store and of the Translator, the gate, and what stands of each feed. -/
structure Standing where
  width   : Nat
  pageLen : Nat
  settle  : Nat
  setting : Nat
  gate    : Bool
  feeds   : Fin 4 → Feed

/-- What of a state stands however strokes are translated and lines come and go. -/
def standing (s : State) : Standing :=
  { width := s.lines.width, pageLen := s.lines.pageLen, settle := s.lines.settle, setting := s.trans.setting
    gate := s.feeds.gate, feeds := fun f => (feed s f).standing }

theorem standing_congr {s t : State} (hl : t.lines = s.lines) (ht : t.trans = s.trans) (hf : t.feeds = s.feeds) :
    standing t = standing s := by
  simp only [standing, feed, hl, ht, hf]

theorem feed_standing {s t : State} (h : standing t = standing s) (f : Fin 4) : (feed t f).standing = (feed s f).standing :=
  congrFun (congrArg Standing.feeds h) f

@[simp] theorem standing_setRecords (rs : List Line) (s : State) : standing (setRecords rs s) = standing s := rfl

@[simp] theorem standing_setOpenLine (o : Option Nat) (s : State) : standing (setOpenLine o s) = standing s := rfl

@[simp] theorem standing_setTrans (t : Translator) (s : State) (h : t.setting = s.trans.setting) :
    standing (setTrans t s) = standing s := by
  simp [standing, h, feed]

@[simp] theorem standing_post (l : Link) (n : Notice) (s : State) : standing (post l n s) = standing s :=
  standing_congr (by simp) (by simp) (by simp)

@[simp] theorem standing_setFeedCtx (f : Fin 4) (c : Feed) (s : State) (h : c.standing = (feed s f).standing) :
    standing (setFeedCtx f c s) = standing s := by
  have hf : (fun g => (feed (setFeedCtx f c s) g).standing) = fun g => (feed s g).standing := funext fun g => by
    rw [feed_setFeedCtx]
    split
    · next e => rw [← e, h]
    · rfl
  simp only [standing, hf, setFeedCtx_lines, setFeedCtx_trans, setFeedCtx_feeds]

@[simp] theorem standing_refreshHealth (f : Fin 4) (s : State) : standing (refreshHealth f s) = standing s := by
  have hf : (fun g => (feed (refreshHealth f s) g).standing) = fun g => (feed s g).standing := funext fun g => by
    rw [feed_refreshHealth]
    split
    · next e => subst e; rfl
    · rfl
  simp only [standing, hf, (refreshHealth_kept f s).1, refreshHealth_keeps]

@[simp] theorem standing_liftLowWaters (s : State) : standing (liftLowWaters s) = standing s := by
  have hf : (fun g => (feed (liftLowWaters s) g).standing) = fun g => (feed s g).standing := funext fun g => by
    rw [feed_liftLowWaters]
    rfl
  simp only [standing, hf, (liftLowWaters_kept s).1, liftLowWaters_keeps]

/-! ### The lines -/

@[simp] theorem standing_removeDone (s : State) : standing (removeDone s) = standing s := by simp [removeDone]

@[simp] theorem standing_takeReclaim (rs : List Line) (l : Line) (s : State) (f : Fin 4) :
    standing (takeReclaim rs l s f) = standing s := by
  unfold takeReclaim
  dsimp only
  split
  · exact (standing_refreshHealth _ _).trans (standing_setFeedCtx _ _ _ rfl)
  · rfl

@[simp] theorem standing_reclaimFeeds (rs : List Line) (l : Line) (s : State) : standing (reclaimFeeds rs l s) = standing s := by
  simp [reclaimFeeds, allFeeds]

@[simp] theorem standing_detachMarks (n : Nat) (s : State) : standing (detachMarks n s) = standing s :=
  standing_congr (by simp) (by simp) (by simp)

@[simp] theorem standing_reclaim (s : State) : standing (reclaim s) = standing s := by
  unfold reclaim
  split <;> simp

@[simp] theorem standing_openNew (c : Cls) (s : State) : standing (openNew c s) = standing s := by
  unfold openNew
  dsimp only
  split
  · exact standing_reclaim s
  · rfl

@[simp] theorem standing_settleCheck (s : State) : standing (settleCheck s).1 = standing s := by
  simp [settleCheck, settleLines]

@[simp] theorem standing_closeOpen (s : State) : standing (closeOpen s).1 = standing s := by
  unfold closeOpen
  split <;> simp

@[simp] theorem standing_settleAll (s : State) : standing (settleAll s).1 = standing s := by
  simp [settleAll, settleLines]

@[simp] theorem standing_layChars (r : PlaceReq) (cs : List Byte) (y : Laying) : standing (layChars r cs y).s = standing y.s := by
  unfold layChars
  repeat' split
  all_goals simp

@[simp] theorem standing_layOpen (r : PlaceReq) (o : Opening) (y : Laying) : standing (layOpen r o y).s = standing y.s := by
  unfold layOpen
  split <;> simp

@[simp] theorem standing_layWrap (r : PlaceReq) (y : Laying) : standing (layWrap r y).s = standing y.s := by simp [layWrap]

@[simp] theorem standing_layWord (r : PlaceReq) (n : Nat) (w : List Byte) (y : Laying) : standing (layWord r n w y).s = standing y.s := by
  induction n generalizing w y with
  | zero => rfl
  | succ n ih =>
    simp only [layWord]
    repeat' split
    all_goals simp [ih]

@[simp] theorem standing_layInLine (r : PlaceReq) (t : Token) (y : Laying) : standing (layInLine r t y).s = standing y.s := by
  unfold layInLine
  dsimp only
  repeat' split
  all_goals simp

@[simp] theorem standing_layToken (r : PlaceReq) (t : Token) (y : Laying) : standing (layToken r y t).s = standing y.s := by
  unfold layToken
  dsimp only
  repeat' split
  all_goals simp

theorem standing_layTokens (r : PlaceReq) (ts : List Token) (y : Laying) : standing (ts.foldl (layToken r) y).s = standing y.s := by
  induction ts generalizing y with
  | nil => rfl
  | cons t ts ih => simp [ih]

@[simp] theorem standing_closeOtherClass (c : Cls) (s : State) : standing (closeOtherClass c s).1 = standing s := by
  unfold closeOtherClass
  repeat' split
  all_goals simp

@[simp] theorem standing_place (r : PlaceReq) (s : State) : standing (place r s).s = standing s := by
  unfold place
  dsimp only
  rw [standing_layTokens, standing_closeOtherClass]
  split <;> simp

@[simp] theorem standing_withdrawLines (p : Nat → Bool) (s : State) : standing (withdrawLines p s) = standing s := by
  unfold withdrawLines
  split
  · rfl
  · exact standing_removeDone _

@[simp] theorem standing_retract (p : Placement) (s : State) : standing (retract p s) = standing s := by
  unfold retract retractInside retractWhole
  dsimp only
  repeat' split
  all_goals simp

/-! ### The Translator -/

@[simp] theorem standing_takeSettled (ns : List Nat) (s : State) : standing (takeSettled ns s) = standing s := by simp [takeSettled]

@[simp] theorem standing_placeFormed (u : Formed) (s : State) : standing (placeFormed u s).s = standing s := by
  unfold placeFormed placeEmpty
  dsimp only
  repeat' split
  all_goals simp

@[simp] theorem standing_placeUnit (keep : Bool) (u : Formed) (s : State) : standing (placeUnit keep u s) = standing s := by
  simp [placeUnit]

@[simp] theorem standing_pass (flush keep : Bool) (n : Nat) (s : State) : standing (pass flush keep n s) = standing s := by
  induction n generalizing s with
  | zero => rfl
  | succ n ih =>
    simp only [pass]
    repeat' split
    all_goals simp [ih]

@[simp] theorem standing_setTimer (before : List TStroke) (s : State) : standing (setTimer before s) = standing s := by
  unfold setTimer
  split <;> simp

@[simp] theorem standing_flushComplete (s : State) : standing (flushComplete s) = standing s := by simp [flushComplete]

@[simp] theorem standing_retractUnit (u : TUnit) (s : State) : standing (retractUnit u s) = standing s := by
  unfold retractUnit
  dsimp only
  split <;> simp [resolvePass]

@[simp] theorem standing_takeStroke (k : Stroke) (s : State) : standing (takeStroke k s) = standing s := by
  unfold takeStroke takeCorrection
  repeat' split
  all_goals simp [takeOrdinary, takeLateStroke, dropNewest, resolvePass]

@[simp] theorem standing_takeAllHanded (n : Nat) (s : State) : standing (takeAllHanded n s) = standing s := by
  induction n generalizing s with
  | zero => rfl
  | succ n ih =>
    unfold takeAllHanded
    split
    · rfl
    · simp [ih]

/-! ### A feed at Open Session (R184) -/

/-- Open Session sets the feed's place in the transcript afresh: it is LIVE, HELD, STALLED or STOPPING (R184). -/
def Feed.Follows (c : Feed) : Prop := c.state = .live ∨ c.state = .held ∨ c.state = .stalled ∨ c.state = .stopping

/-- The feed's place in a transcript that has no line yet (R184). -/
def Feed.AtStart (c : Feed) : Prop :=
  c.lowWater = 1 ∧ c.announced = 0 ∧ c.edits = [] ∧ c.withheld = false ∧ c.outOfStep = false

@[simp] theorem standing_feedAtOpen (f : Fin 4) (s : State) : standing (feedAtOpen s f) = standing s := by
  have h : standing (refreshHealth f (setFeedCtx f
      { feed s f with lowWater := 1, announced := 0, edits := [], withheld := false, outOfStep := false } s)) = standing s :=
    (standing_refreshHealth _ _).trans (standing_setFeedCtx _ _ _ rfl)
  unfold feedAtOpen
  dsimp only
  split
  · exact h
  · exact h
  · exact h
  · exact h
  · rfl

@[simp] theorem standing_feedsAtOpen (s : State) : standing (feedsAtOpen s) = standing s := by simp [feedsAtOpen, allFeeds]

theorem feedAtOpen_self (f : Fin 4) (s : State) (h : (feed s f).Follows) : (feed (feedAtOpen s f) f).AtStart := by
  unfold feedAtOpen
  dsimp only
  rcases h with h | h | h | h <;> simp [h, feed_refreshHealth, Feed.AtStart]

theorem feedAtOpen_other (f g : Fin 4) (s : State) (h : f ≠ g) : feed (feedAtOpen s f) g = feed s g := by
  unfold feedAtOpen
  dsimp only
  split
  all_goals simp [feed_refreshHealth, feed_setFeedCtx, h]

theorem follows_of_standing {c d : Feed} (h : d.standing = c.standing) (hc : c.Follows) : d.Follows := by
  have e : d.state = c.state := congrArg (·.state) h
  unfold Feed.Follows
  rwa [e]

/-- Each feed that follows the transcript stands at its start once its turn has come. -/
theorem foldl_feedAtOpen (g : Fin 4) (l : List (Fin 4)) (s : State) (h : (feed s g).Follows)
    (hg : g ∈ l ∨ (feed s g).AtStart) : (feed (l.foldl feedAtOpen s) g).AtStart := by
  induction l generalizing s with
  | nil => exact hg.resolve_left (by simp)
  | cons a l ih =>
    refine ih (feedAtOpen s a) (follows_of_standing (feed_standing (standing_feedAtOpen a s) g) h) ?_
    by_cases ha : a = g
    · subst ha
      exact .inr (feedAtOpen_self a s h)
    · rw [feedAtOpen_other a g s ha]
      exact hg.imp_left fun hm => (List.mem_cons.1 hm).resolve_left (Ne.symm ha)

theorem feedsAtOpen_atStart (g : Fin 4) (s : State) (h : (feed s g).Follows) : (feed (feedsAtOpen s) g).AtStart :=
  foldl_feedAtOpen g allFeeds s h (.inl (mem_allFeeds g))

/-! ### A choice over an empty Line Store -/

/-- A frame in flight is still in flight, and a feed at the start of the transcript is still there. -/
def Undisturbed (a b : Feed) : Prop := (a.flight ≠ none → b.flight = a.flight) ∧ (a.AtStart → b.AtStart)

theorem Undisturbed.refl (a : Feed) : Undisturbed a a := ⟨fun _ => rfl, id⟩

theorem Undisturbed.trans {a b c : Feed} (h1 : Undisturbed a b) (h2 : Undisturbed b c) : Undisturbed a c :=
  ⟨fun h => (h2.1 (by rwa [h1.1 h])).trans (h1.1 h), fun h => h2.2 (h1.2 h)⟩

/-- An edit queue names no line of an empty store. -/
theorem serveEdits_nil (a : Audience) (q : List Nat) : serveEdits a [] q = ([], none) := by
  induction q with
  | nil => rfl
  | cons n q ih => simpa [serveEdits, findLine] using ih

/-- A context written back as it stands. -/
theorem setFeedCtx_feed (f : Fin 4) (s : State) : setFeedCtx f (feed s f) s = s := by
  have h : s.feeds.ctx.set f (s.feeds.ctx.get f) = s.feeds.ctx := by
    match f with
    | 0 => rfl
    | 1 => rfl
    | 2 => rfl
    | 3 => rfl
  simp [setFeedCtx, feed, h]

/-- A frame that names no line changes its own feed's context alone, and not its place in the transcript. -/
theorem actOn_lineless (f : Fin 4) (d : Due) (s : State) (hd : d = .idle ∨ d = .test) :
    ∃ c, actOn f d s = setFeedCtx f c s ∧ ((feed s f).AtStart → c.AtStart) := by
  unfold actOn startStall
  split
  · rcases hd with rfl | rfl
    · exact ⟨_, rfl, id⟩
    · simp only [startFrame]
      split
      · exact ⟨feed s f, (setFeedCtx_feed f s).symm, id⟩
      · exact ⟨_, rfl, id⟩
  · exact ⟨_, rfl, id⟩

/-- With no line there a LIVE feed's choice yields an IDLE frame or none (R164). -/
theorem liveChoice_nil (s : State) (f : Fin 4) (hr : s.lines.records = []) :
    liveChoice s f = ([], (feed s f).announced, if (feed s f).idleDue then some .idle else none) := by
  simp [liveChoice, hr, serveEdits_nil, scan]

/-- With no line there the low water is at most lifted to the next serial (R167). -/
theorem raisedLow_nil (f : Fin 4) (c : Feed) (ls : LineStore) (hr : ls.records = []) :
    raisedLow f c ls = Nat.max c.lowWater (ls.counter + 1) := by
  simp [raisedLow, hr]

theorem raiseLow_setFeedCtx (f : Fin 4) (c : Feed) (s : State) :
    raiseLow f (setFeedCtx f c s) = setFeedCtx f { c with lowWater := raisedLow f c s.lines } s := by
  simp [raiseLow]

/-- With no line there a LIVE feed empties its edit queue and starts an IDLE frame where one is due (R164). -/
theorem chooseLive_nil (f : Fin 4) (s : State) (hr : s.lines.records = []) :
    chooseLive f s = raiseLow f (if (feed s f).idleDue then actOn f .idle (setFeedCtx f { feed s f with edits := [] } s)
      else setFeedCtx f { feed s f with edits := [] } s) := by
  unfold chooseLive
  rw [liveChoice_nil s f hr]
  by_cases h : (feed s f).idleDue = true
  · simp only [h, if_true]
  · simp only [h]
    rfl

theorem chooseLive_lineless (f : Fin 4) (s : State) (hr : s.lines.records = []) (hc : s.lines.counter = 0) :
    ∃ c, chooseLive f s = setFeedCtx f c s ∧ ((feed s f).AtStart → c.AtStart) := by
  have hserved : (feed s f).AtStart → ({ feed s f with edits := [] } : Feed).AtStart := fun ⟨h1, h2, _, h4⟩ => ⟨h1, h2, rfl, h4⟩
  have hraised : ∀ {x}, (∃ c, x = setFeedCtx f c s ∧ ((feed s f).AtStart → c.AtStart)) →
      ∃ c, raiseLow f x = setFeedCtx f c s ∧ ((feed s f).AtStart → c.AtStart) := by
    rintro _ ⟨c, rfl, h⟩
    refine ⟨_, raiseLow_setFeedCtx f c s, fun hs => ?_⟩
    obtain ⟨h1, h2⟩ := h hs
    exact ⟨by simp [raisedLow_nil f c s.lines hr, hc, h1], h2⟩
  rw [chooseLive_nil f s hr]
  refine hraised ?_
  split
  · obtain ⟨c, e, h⟩ := actOn_lineless f .idle (setFeedCtx f { feed s f with edits := [] } s) (.inl rfl)
    rw [feed_setFeedCtx_self] at h
    exact ⟨c, by rw [e, setFeedCtx_setFeedCtx], fun hs => h (hserved hs)⟩
  · exact ⟨_, rfl, hserved⟩

/-- With no line in the store a feed's choice changes its own context alone, and does not disturb it. -/
theorem choose_undisturbed (f : Fin 4) (s : State) (hr : s.lines.records = []) (hc : s.lines.counter = 0) :
    ∃ c, choose f s = setFeedCtx f c s ∧ Undisturbed (feed s f) c := by
  have hstay : ∃ c, s = setFeedCtx f c s ∧ Undisturbed (feed s f) c := ⟨_, (setFeedCtx_feed f s).symm, .refl _⟩
  unfold choose
  dsimp only
  split
  · exact hstay
  · next hfl =>
    have hnone : (feed s f).flight = none := by simpa using hfl
    have hacts : ∀ {x}, (∃ c, x = setFeedCtx f c s ∧ ((feed s f).AtStart → c.AtStart)) →
        ∃ c, x = setFeedCtx f c s ∧ Undisturbed (feed s f) c :=
      fun ⟨c, e, h⟩ => ⟨c, e, fun hne => absurd hnone hne, h⟩
    repeat' split
    · exact hacts (chooseLive_lineless f s hr hc)
    · exact hacts (actOn_lineless f .idle s (.inl rfl))
    · exact hstay
    · exact hacts (actOn_lineless f .test s (.inr rfl))
    · exact hstay
    · exact hstay
    · exact hstay

/-- With no line in the store the feeds' choices leave the store empty and disturb no feed. -/
theorem chooseAll_undisturbed (s : State) (hr : s.lines.records = []) (hc : s.lines.counter = 0) :
    (chooseAll s).lines = s.lines ∧ ∀ g, Undisturbed (feed s g) (feed (chooseAll s) g) := by
  unfold chooseAll
  generalize allFeeds = l
  induction l generalizing s with
  | nil => exact ⟨rfl, fun g => .refl _⟩
  | cons a l ih =>
    obtain ⟨c, e, h⟩ := choose_undisturbed a s hr hc
    obtain ⟨hl, hu⟩ := ih (setFeedCtx a c s) hr hc
    simp only [List.foldl_cons, e]
    refine ⟨hl, fun g => .trans ?_ (hu g)⟩
    rw [feed_setFeedCtx]
    split
    · next ha => exact ha ▸ h
    · exact .refl _

end Sys2Proof.Machine

/-! Open Session (O49). -/

namespace Sys2Proof.Machine

/-! ### The steps of an Open Session -/

/-- The state in which the OPEN entry is asked for: the strokes handed over taken, the numbers and the class formed afresh (R61, R116,
R153). -/
def openReady (s : State) : State := openClass (newSession (takeAllHanded s.trans.handed.length s))

/-- LIVE, with the OPEN entry asked for (R61). -/
def openEntered (s : State) : State := setSession .live (append (openEntry (openReady s)) (openReady s))

/-- The opening told, the keys pressed marked, and the Translator emptied (R10, R61, R117). -/
def openTold (s : State) : State := transAtOpen (ignoreActive (postBoth .sessionState (openEntered s)))

/-- The transcript of the session just opened, before the feeds choose (R140, R184, R197). -/
def openBegun (s : State) : State := emptyTranscript (openTold s)

theorem opened_eq (s : State) : opened s = chooseAll (openBegun s) := rfl

/-- What each part is when the OPEN entry is asked for. -/
@[simp] theorem openReady_parts (s : State) :
    (openReady s).session = { s.session with number := s.session.number + 1, clock := 0, recesses := 0 } ∧
    (openReady s).chords = { s.chords with strokes := 0 } ∧
    (openReady s).cls = { s.cls with bench := .opn, effective := effectiveOf .opn s.cls.sbar } ∧
    (openReady s).ksu = s.ksu ∧ (openReady s).journal = s.journal ∧ (openReady s).memory = s.memory ∧ (openReady s).dict = s.dict ∧
    (openReady s).pins = s.pins ∧ (openReady s).now = s.now ∧ (openReady s).pending = s.pending := by
  simp [openReady, openClass, newSession]

/-- The OPEN entry (R67, R219). -/
theorem openEntry_openReady (s : State) : openEntry (openReady s) =
    { kind := .opn, attrs := BitVec.ofNat 8 (if s.cls.sbar then 1 else 0), seq := 0, time := 0, fieldA := s.session.number + 1
      fieldB := if s.dict.mainState = .empty then 0 else s.dict.main.length } := by
  simp only [openEntry, openReady_parts, clsAttrs, effectiveOf_opn]
  cases s.cls.sbar <;> rfl

/-- What each part is once the entry is asked for. -/
@[simp] theorem openEntered_parts (s : State) (h : s.session.st = .standby) :
    (openEntered s).session = { s.session with st := .live, number := s.session.number + 1, clock := 0, recesses := 0 } ∧
    (openEntered s).chords = { s.chords with strokes := 0 } ∧
    (openEntered s).cls = { s.cls with bench := .opn, effective := effectiveOf .opn s.cls.sbar } ∧
    (openEntered s).ksu = s.ksu ∧ (openEntered s).journal = (append (openEntry (openReady s)) (openReady s)).journal ∧
    (openEntered s).memory = s.memory ∧ (openEntered s).dict = s.dict ∧
    (openEntered s).pins = s.pins ∧ (openEntered s).now = s.now ∧ (openEntered s).pending = s.pending := by
  simp [openEntered, append_session_eq, h]

/-- What each part is once the session is open (R61, R140, R153, R197). -/
theorem opened_parts (s : State) (h : s.session.st = .standby) :
    (opened s).session = { s.session with st := .live, number := s.session.number + 1, clock := 0, recesses := 0 } ∧
    (opened s).chords = { s.chords with strokes := 0 } ∧
    (opened s).cls = { s.cls with bench := .opn, effective := effectiveOf .opn s.cls.sbar } ∧
    (opened s).journal = (append (openEntry (openReady s)) (openReady s)).journal ∧
    (opened s).memory = s.memory ∧ (opened s).dict = s.dict ∧ (opened s).marks = MarkTable.emptied ∧
    OutsideKept s (opened s) := by
  simp [opened_eq, openBegun, emptyTranscript, openTold, h, OutsideKept]

/-- Keys pressed take the ignore mark (R10). -/
theorem opened_ignore (s : State) (h : s.session.st = .standby) (i : Nat) :
    (keyAt (opened s) i).ignore = ((keyAt s i).ignore || (keyAt s i).isActive) := by
  have hk : (opened s).ksu = (ignoreActive (postBoth .sessionState (openEntered s))).ksu := by
    simp [opened_eq, openBegun, emptyTranscript, openTold]
  rw [keyAt_of_ksu hk, keyAt_ignoreActive, keyAt_of_ksu (s := s) (by simp [h])]

/-- The notice posted at the opening stays (R61, R210). -/
theorem opened_told (s : State) : FlagsKept (postBoth .sessionState (openEntered s)) (opened s) :=
  .after (chooseAll_flags _) (.after (emptyTranscript_flags _) (.of_attn rfl rfl))

/-! ### The transcript -/

theorem standing_emptyTranscript (s : State) : standing (emptyTranscript s) = standing s := by
  rw [emptyTranscript, standing_feedsAtOpen]
  rfl

theorem emptyTranscript_atStart (f : Fin 4) (s : State) (h : (feed s f).Follows) : (feed (emptyTranscript s) f).AtStart :=
  feedsAtOpen_atStart f _ h

theorem standing_transAtOpen (s : State) : standing (transAtOpen s) = standing s := standing_setTrans _ s rfl

theorem standing_openTold (s : State) : standing (openTold s) = standing s := by
  have h : standing (ignoreActive (postBoth .sessionState (openEntered s))) = standing (takeAllHanded s.trans.handed.length s) := by
    refine standing_congr ?_ ?_ ?_ <;> simp [openEntered, openReady, openClass, newSession]
  rw [openTold, standing_transAtOpen, h, standing_takeAllHanded]

/-- What translation and the lines do not touch stands up to the feeds' choices. -/
theorem standing_openBegun (s : State) : standing (openBegun s) = standing s :=
  (standing_emptyTranscript _).trans (standing_openTold s)

theorem openBegun_lines (s : State) : (openBegun s).lines = LineStore.emptied s.lines.width s.lines.pageLen s.lines.settle := by
  have h := standing_openBegun s
  have hw : (openBegun s).lines.width = s.lines.width := congrArg Standing.width h
  have hp : (openBegun s).lines.pageLen = s.lines.pageLen := congrArg Standing.pageLen h
  have hs : (openBegun s).lines.settle = s.lines.settle := congrArg Standing.settle h
  rw [← hw, ← hp, ← hs]
  simp [openBegun, emptyTranscript, openTold, LineStore.emptied]

/-- The Line Store is empty, its numbering begins afresh, and its settings stay (R140). -/
theorem opened_lines (s : State) : (opened s).lines = LineStore.emptied s.lines.width s.lines.pageLen s.lines.settle := by
  have h := openBegun_lines s
  rw [opened_eq, (chooseAll_undisturbed (openBegun s) (by rw [h]; rfl) (by rw [h]; rfl)).1, h]

/-- The Translator holds nothing, and its timer setting stays (R117). -/
theorem opened_trans (s : State) :
    (opened s).trans.lookahead = [] ∧ (opened s).trans.history = [] ∧ (opened s).trans.carry = Carry.clear ∧
      (opened s).trans.timer = none ∧ (opened s).trans.setting = s.trans.setting := by
  have hs : (openBegun s).trans.setting = s.trans.setting := congrArg Standing.setting (standing_openBegun s)
  have ht : (opened s).trans = (openBegun s).trans := by simp [opened_eq]
  rw [ht]
  refine ⟨?_, ?_, ?_, ?_, hs⟩ <;> simp [openBegun, emptyTranscript, openTold, transAtOpen]

/-- Of each feed what R184 keeps: all that neither the transcript nor a choice touches, and a frame in flight. -/
theorem opened_feed (s : State) (f : Fin 4) :
    (feed (opened s) f).standing.steady = (feed s f).standing.steady ∧
      ((feed s f).flight ≠ none → (feed (opened s) f).flight = (feed s f).flight) ∧
      ((feed s f).Follows → (feed (opened s) f).AtStart) := by
  have hlines := openBegun_lines s
  have hbegun := feed_standing (standing_openBegun s) f
  have hflight : (feed (openBegun s) f).flight = (feed s f).flight := congrArg (·.flight) hbegun
  obtain ⟨-, hchosen⟩ := chooseAll_undisturbed (openBegun s) (by rw [hlines]; rfl) (by rw [hlines]; rfl)
  obtain ⟨hstays, hstart⟩ := hchosen f
  refine ⟨?_, fun h => ?_, fun h => hstart ?_⟩
  · have hsteady : (feed (opened s) f).steady = (feed (openBegun s) f).steady := (chooseAll_kept (openBegun s)).2 f
    calc (feed (opened s) f).standing.steady
      _ = (feed (opened s) f).steady.standing := rfl
      _ = (feed (openBegun s) f).steady.standing := by rw [hsteady]
      _ = (feed (openBegun s) f).standing.steady := rfl
      _ = (feed s f).standing.steady := by rw [hbegun]
  · exact (hstays (by rwa [hflight])).trans hflight
  · exact emptyTranscript_atStart f _ (follows_of_standing (feed_standing (standing_openTold s) f) h)

theorem opened_gate (s : State) : (opened s).feeds.gate = s.feeds.gate :=
  (chooseAll_kept (openBegun s)).1.trans (congrArg Standing.gate (standing_openBegun s))

/-! ### A block opened for the entry -/

/-- An entry that finds no FILLING block stands at the end of what the block opened for it begins with (R30, R52). -/
theorem append_opens_block (e : Entry) (s : State) (i : Fin 4) (hc : s.journal.cond = .normal)
    (hf : findFilling s.journal.buffers = none) (hi : lowestFree s.journal.buffers = some i) (hb : s.journal.blockSpent = false)
    (hn : s.journal.nextEntry + 1 < 4294967295) :
    ∃ b, (append e s).journal.buffers = s.journal.buffers.set i (.filling b) ∧ b.seq = s.journal.nextBlock ∧
      b.session = s.session.number ∧ b.openTime = s.session.clock ∧ b.entries.getLast? = some e ∧
      (s.journal.restartPending = false → b.entries = [e]) := by
  have hlen : (pendingRestart s).length ≤ 1 := by
    unfold pendingRestart
    split <;> simp
  have ha := append_opens e s i hc hf hi hb (by omega)
  rw [openedWith, openedBlock_eq] at ha
  refine ⟨_, by rw [ha], rfl, rfl, rfl, by simp, fun hp => ?_⟩
  simp [pendingRestart, hp]

/-- The OPEN entry joins the FILLING block (R28, R67). -/
theorem opened_joins (s : State) (h : s.session.st = .standby) : EntryJoins (openEntry (openReady s)) s (opened s) := by
  obtain ⟨-, -, -, hjournal, -⟩ := opened_parts s h
  obtain ⟨-, -, -, -, hready, -⟩ := openReady_parts s
  exact (append_joins _ _).congr hready.symm hjournal

/-- With no FILLING block one is opened for the OPEN entry, in the session's new number and at clock 0 (R30, R61). -/
theorem opened_opens_block (s : State) (h : s.session.st = .standby) (i : Fin 4) (hc : s.journal.cond = .normal)
    (hf : findFilling s.journal.buffers = none) (hi : lowestFree s.journal.buffers = some i) (hb : s.journal.blockSpent = false)
    (hn : s.journal.nextEntry + 1 < 4294967295) :
    ∃ b, (opened s).journal.buffers = s.journal.buffers.set i (.filling b) ∧ b.seq = s.journal.nextBlock ∧
      b.session = s.session.number + 1 ∧ b.openTime = 0 ∧ b.entries.getLast? = some (openEntry (openReady s)) ∧
      (s.journal.restartPending = false → b.entries = [openEntry (openReady s)]) := by
  obtain ⟨-, -, -, hjournal, -⟩ := opened_parts s h
  have hopens := append_opens_block (openEntry (openReady s)) (openReady s) i
  simp only [openReady_parts] at hopens
  rw [hjournal]
  exact hopens hc hf hi hb hn

/-! ### The request -/

theorem feed_touchPresence (l : Link) (s : State) (f : Fin 4) : feed (touchPresence l s) f = feed s f := by simp [feed]

theorem feed_answered (l : Link) (r : Req) (tag : Byte) (st : Status) (p : List Byte) (s : State) (f : Fin 4) :
    feed (answered l r tag st p s) f = feed s f := by simp [feed]

theorem exec_openSession (tag : Byte) (s : State) (ht : Takes .reporter s) : exec (.openSession .reporter tag (.fields ())) s =
    .next (deliver .reporter Req.openSession.code tag (openSession () (touchPresence .reporter s))) :=
  congrArg _ (serve_takes _ _ _ _ _ s ht rfl)

/-- A condition that holds refuses the request, and nothing has changed (R60). -/
theorem openSession_refused (tag : Byte) (s : State) (ht : Takes .reporter s) (st : Status)
    (h : openRefusal (touchPresence .reporter s) = some st) : exec (.openSession .reporter tag (.fields ())) s =
      .next (answered .reporter .openSession tag st [] (touchPresence .reporter s)) := by
  rw [exec_openSession tag s ht]
  simp [openSession, h]

/-- With none of the conditions the session opens (R61). -/
theorem openSession_taken (tag : Byte) (s : State) (ht : Takes .reporter s) (hs : s.session.st = .standby)
    (h : openRefusal (touchPresence .reporter s) = none) : exec (.openSession .reporter tag (.fields ())) s =
      .next (answered .reporter .openSession tag .ok (be 2 (s.session.number + 1)) (opened (touchPresence .reporter s))) := by
  obtain ⟨hsession, -⟩ := opened_parts (touchPresence .reporter s) (by simpa using hs)
  rw [exec_openSession tag s ht]
  simp [openSession, h, hsession]

theorem openRefusal_standby (s : State) (hs : s.session.st = .standby) (hz : s.ksu.zeroing = none) (hn : s.session.number < 65535) :
    openRefusal s = if s.dict.mainState = .loading ∨ s.dict.mainState = .building then some .wrongState
      else if s.journal.cond.isFaulted then some .journalFault else none := by
  have hn' : ¬max16 ≤ s.session.number := Nat.not_le.2 hn
  simp [openRefusal, hs, zeroingRuns, hz, hn']

/-- The feeds' part of R184, written out. -/
theorem opened_feed_fields (s : State) (f : Fin 4) :
    (feed (opened s) f).state = (feed s f).state ∧ (feed (opened s) f).audience = (feed s f).audience ∧
    (feed (opened s) f).rate = (feed s f).rate ∧ (feed (opened s) f).backfill = (feed s f).backfill ∧
    (feed (opened s) f).idleInterval = (feed s f).idleInterval ∧ (feed (opened s) f).stallTime = (feed s f).stallTime ∧
    (feed (opened s) f).benchHold = (feed s f).benchHold ∧ (feed (opened s) f).seen = (feed s f).seen ∧
    ((feed s f).flight ≠ none → (feed (opened s) f).flight = (feed s f).flight) ∧
    ((feed s f).Follows → (feed (opened s) f).AtStart) := by
  obtain ⟨hkept, hflight, hstart⟩ := opened_feed s f
  exact ⟨congrArg (·.state) hkept, congrArg (·.audience) hkept, congrArg (·.rate) hkept, congrArg (·.backfill) hkept,
    congrArg (·.idleInterval) hkept, congrArg (·.stallTime) hkept, congrArg (·.benchHold) hkept, congrArg (·.seen) hkept,
    hflight, hstart⟩

/-- Settles O49: what the opening makes of each part, and the conditions in their order (R60). -/
theorem openSessionStartsAfresh : Obligations.OpenSessionStartsAfresh := by
  intro tag s ht
  have hrefusal := openRefusal_standby (touchPresence .reporter s)
  simp only [touchPresence_keeps] at hrefusal
  refine ⟨fun hs hz hn hd hf => ?_, fun hs => ?_, fun hs hz => ?_, fun hs hz hn => ?_, fun hs hz hn hd => ?_, fun hs hz hn hd hf => ?_⟩
  · have hnone : openRefusal (touchPresence .reporter s) = none := by
      rw [hrefusal hs hz hn]
      rcases hd with hd | hd <;> simp [hd, hf]
    have hst : (touchPresence .reporter s).session.st = .standby := by simpa using hs
    have hentry := openEntry_openReady (touchPresence .reporter s)
    obtain ⟨hsession, hchords, hcls, -, hmemory, hdict, hmarks, houtside⟩ := opened_parts _ hst
    obtain ⟨hlook, hhist, hcarry, htimer, hsetting⟩ := opened_trans (touchPresence .reporter s)
    have hlines := opened_lines (touchPresence .reporter s)
    obtain ⟨hrep, hben⟩ := ((opened_told (touchPresence .reporter s)).trans
      (answered_flags .reporter .openSession tag .ok (be 2 (s.session.number + 1)) _)).told
    simp only [touchPresence_keeps] at hentry hsession hchords hcls hmemory hdict hsetting hlines
    refine ⟨_, _, openSession_taken tag s ht hs hnone, hentry, (opened_joins _ hst).congr (by simp) (by simp),
      by simpa using opened_opens_block _ hst, ?_⟩
    simp only [answered_keeps]
    refine ⟨hsession, by rw [hchords], hlook, hhist, hcarry, htimer, hsetting, hlines, hmarks, ?_, fun f => ?_, ?_, hrep, hben, rfl,
      fun i => ?_, ?_, hdict, hmemory⟩
    · rw [hcls, effectiveOf_opn]
    · rw [feed_answered, ← feed_touchPresence .reporter s f]
      exact opened_feed_fields _ f
    · rw [opened_gate]
      simp
    · rw [keyAt_answered, opened_ignore _ hst, keyAt_of_ksu (s := s) (by simp)]
    · simpa [OutsideKept] using houtside
  · exact openSession_refused tag s ht _ (by simp [openRefusal, hs])
  · exact openSession_refused tag s ht _ (by simp [openRefusal, hs, zeroingRuns, Option.isSome_iff_ne_none.2 hz])
  · exact openSession_refused tag s ht _ (by simp [openRefusal, hs, zeroingRuns, hz, hn])
  · exact openSession_refused tag s ht _ (by rw [hrefusal hs hz hn, if_pos hd])
  · refine openSession_refused tag s ht _ ?_
    rw [hrefusal hs hz hn]
    rcases hd with hd | hd <;> simp [hd, hf]

end Sys2Proof.Machine

/-! The tiers of the Dictionary Store: what an entry put in, an entry taken out and a group applied leave under each key, and how many entries
there are then (R76, R84, R85). -/

namespace Sys2Proof.Machine

/-! ### A tier with an entry put in or taken out -/

theorem holdsKey_eq_any (es : List DictEntry) (key : List KeySet) : holdsKey es key = es.any (fun e => e.key = key) := by
  rw [holdsKey, findKey, Bool.eq_iff_iff, List.find?_isSome, List.any_eq_true]

theorem holdsKey_iff_mem (es : List DictEntry) (key : List KeySet) : holdsKey es key = true ↔ key ∈ es.map (·.key) := by
  simp [holdsKey_eq_any]

theorem findKey_removeKey (k key : List KeySet) (es : List DictEntry) :
    findKey (removeKey k es) key = if k = key then none else findKey es key := by
  unfold findKey removeKey
  rw [List.find?_filter]
  by_cases h : k = key
  · subst h
    simp
  · rw [if_neg h]
    congr 1
    funext e
    by_cases he : e.key = key
    · simp [he, Ne.symm h]
    · simp [he]

/-- Under a key held, the entry put in takes the place of the one there; the other keys keep theirs. -/
theorem findKey_replaced (e : DictEntry) (key : List KeySet) (es : List DictEntry) (h : holdsKey es e.key = true) :
    findKey (es.map (fun x => if x.key = e.key then e else x)) key = if e.key = key then some e else findKey es key := by
  rw [holdsKey_iff_mem] at h
  unfold findKey
  by_cases hk : e.key = key
  · subst hk
    induction es with
    | nil => simp at h
    | cons x es ih =>
      by_cases hx : x.key = e.key
      · simp [hx]
      · have hm : e.key ∈ es.map (·.key) := by simpa [Ne.symm hx] using h
        simpa [hx] using ih hm
  · clear h
    rw [if_neg hk]
    induction es with
    | nil => rfl
    | cons x es ih =>
      by_cases hx : x.key = e.key
      · simpa [hx, hk] using ih
      · simp only [List.map_cons, if_neg hx, List.find?_cons, ih]

theorem findKey_upsert (e : DictEntry) (key : List KeySet) (es : List DictEntry) :
    findKey (upsert e es) key = if e.key = key then some e else findKey es key := by
  unfold upsert
  split
  · next h => exact findKey_replaced e key es h
  · next h =>
    rw [Bool.not_eq_true, holdsKey, Option.isSome_eq_false_iff, Option.isNone_iff_eq_none] at h
    unfold findKey at h ⊢
    rw [List.find?_append]
    by_cases hk : e.key = key
    · subst hk
      simp [h]
    · simp [hk]

/-- The keys of a tier with an entry put in. -/
theorem keys_upsert (e : DictEntry) (es : List DictEntry) :
    (upsert e es).map (·.key) = es.map (·.key) ++ if holdsKey es e.key then [] else [e.key] := by
  unfold upsert
  split
  · rw [List.append_nil, List.map_map]
    refine List.map_congr_left fun x _ => ?_
    by_cases hx : x.key = e.key <;> simp [hx]
  · simp

theorem keys_nodup_upsert (e : DictEntry) (es : List DictEntry) (h : (es.map (·.key)).Nodup) : ((upsert e es).map (·.key)).Nodup := by
  rw [keys_upsert]
  split
  · rwa [List.append_nil]
  · next hk =>
    rw [holdsKey_iff_mem] at hk
    exact List.nodup_append_comm.1 (List.nodup_cons.2 ⟨hk, h⟩)

/-- The keys of a tier without a key. -/
theorem keys_removeKey (k : List KeySet) (es : List DictEntry) : (removeKey k es).map (·.key) = (es.map (·.key)).filter (· != k) := by
  simp [removeKey, List.filter_map, Function.comp_def, bne, beq_eq_decide]

theorem length_upsert (e : DictEntry) (es : List DictEntry) :
    (upsert e es).length = es.length + if holdsKey es e.key then 0 else 1 := by
  have h := congrArg List.length (keys_upsert e es)
  rw [List.length_append, List.length_map, List.length_map] at h
  rw [h]
  split <;> rfl

/-- A tier of distinct keys loses one entry with a key it holds. -/
theorem length_removeKey (k : List KeySet) (es : List DictEntry) (h : (es.map (·.key)).Nodup) :
    (removeKey k es).length + (if holdsKey es k then 1 else 0) = es.length := by
  have hl := congrArg List.length (keys_removeKey k es)
  rw [← h.erase_eq_filter k, List.length_map] at hl
  rw [hl]
  split
  · next hk =>
    have hm := (holdsKey_iff_mem es k).1 hk
    have hpos := List.length_pos_of_mem hm
    rw [List.length_map] at hpos
    rw [List.length_erase_of_mem hm, List.length_map]
    exact Nat.sub_add_cancel hpos
  · next hk =>
    rw [List.erase_of_not_mem fun hm => hk ((holdsKey_iff_mem es k).2 hm), List.length_map, Nat.add_zero]

/-! ### A staged change applied -/

/-- The entry a staged change leaves under its key (R85). -/
def Staged.entry : Staged → Option DictEntry
  | .define e => some e
  | .remove _ => none

theorem findKey_apply (c : Staged) (key : List KeySet) (es : List DictEntry) :
    findKey (c.apply es) key = if c.key = key then c.entry else findKey es key := by
  cases c with
  | define e => exact findKey_upsert e key es
  | remove k => exact findKey_removeKey k key es

theorem keys_nodup_apply (c : Staged) (es : List DictEntry) (h : (es.map (·.key)).Nodup) : ((c.apply es).map (·.key)).Nodup := by
  cases c with
  | define e => exact keys_nodup_upsert e es h
  | remove k =>
    rw [Staged.apply, keys_removeKey]
    exact h.filter _

/-! ### A group applied, change by change -/

/-- Under each key stands what the last change for it leaves, or what stood there (R85). -/
theorem findKey_applyAll (g : List Staged) (job : List DictEntry) (key : List KeySet) :
    findKey (g.foldl Staged.apply job) key =
      match (g.filter (fun c => c.key = key)).getLast? with
      | some c => c.entry
      | none => findKey job key := by
  induction g using List.reverseRecOn with
  | nil => rfl
  | append_singleton g c ih =>
    rw [List.foldl_append, List.filter_append]
    by_cases hc : c.key = key
    · simp [findKey_apply, hc]
    · simpa [findKey_apply, hc] using ih

theorem holdsKey_applyAll_other (g : List Staged) (job : List DictEntry) (key : List KeySet) (h : key ∉ g.map Staged.key) :
    holdsKey (g.foldl Staged.apply job) key = holdsKey job key := by
  have hnone : g.filter (fun c => c.key = key) = [] := by
    simp only [List.filter_eq_nil_iff, decide_eq_true_eq]
    exact fun c hc hk => h (hk ▸ List.mem_map_of_mem hc)
  rw [holdsKey, findKey_applyAll, hnone]
  rfl

theorem keys_nodup_applyAll (g : List Staged) (job : List DictEntry) (h : (job.map (·.key)).Nodup) :
    ((g.foldl Staged.apply job).map (·.key)).Nodup := by
  induction g generalizing job with
  | nil => exact h
  | cons c g ih => exact ih _ (keys_nodup_apply c job h)

/-! ### The entries counted -/

theorem addedCount_concat (job : List DictEntry) (g : List Staged) (c : Staged) :
    addedCount job (g ++ [c]) = addedCount job g + addedCount job [c] := by
  rw [addedCount, List.filter_append, List.length_append]
  rfl

theorem removedCount_concat (job : List DictEntry) (g : List Staged) (c : Staged) :
    removedCount job (g ++ [c]) = removedCount job g + removedCount job [c] := by
  rw [removedCount, List.filter_append, List.length_append]
  rfl

theorem addedCount_define (job : List DictEntry) (e : DictEntry) :
    addedCount job [.define e] = if holdsKey job e.key then 0 else 1 := by
  cases h : holdsKey job e.key <;> simp [addedCount, h]

theorem removedCount_remove (job : List DictEntry) (k : List KeySet) :
    removedCount job [.remove k] = if holdsKey job k then 1 else 0 := by
  cases h : holdsKey job k <;> simp [removedCount, h]

/-- One change, counted against the tier it is applied to. -/
theorem length_apply (c : Staged) (job : List DictEntry) (h : (job.map (·.key)).Nodup) :
    (c.apply job).length + removedCount job [c] = job.length + addedCount job [c] := by
  cases c with
  | define e =>
    rw [addedCount_define]
    exact length_upsert e job
  | remove k =>
    rw [removedCount_remove]
    exact length_removeKey k job h

/-- A change is counted alike against two tiers that both hold its key, or both do not. -/
theorem counts_single_congr (c : Staged) (job job' : List DictEntry) (h : holdsKey job' c.key = holdsKey job c.key) :
    addedCount job' [c] = addedCount job [c] ∧ removedCount job' [c] = removedCount job [c] := by
  cases c with
  | define e =>
    rw [Staged.key] at h
    exact ⟨by rw [addedCount_define, addedCount_define, h], rfl⟩
  | remove k =>
    rw [Staged.key] at h
    exact ⟨rfl, by rw [removedCount_remove, removedCount_remove, h]⟩

/-- Distinct keys in the tier and in the group: the group leaves as many entries as it was reckoned to (R84, R85). -/
theorem length_applyAll (g : List Staged) (job : List DictEntry) (hj : (job.map (·.key)).Nodup) (hg : (g.map Staged.key).Nodup) :
    (g.foldl Staged.apply job).length + removedCount job g = job.length + addedCount job g := by
  induction g using List.reverseRecOn with
  | nil => rfl
  | append_singleton g c ih =>
    rw [List.map_append, List.map_singleton, List.nodup_append_comm, List.singleton_append, List.nodup_cons] at hg
    obtain ⟨hc, hg⟩ := hg
    obtain ⟨hadd, hrem⟩ := counts_single_congr c job _ (holdsKey_applyAll_other g job c.key hc)
    have hone := length_apply c _ (keys_nodup_applyAll g job hj)
    have hall := ih hg
    rw [hadd, hrem] at hone
    rw [addedCount_concat, removedCount_concat, List.foldl_append, List.foldl_cons, List.foldl_nil]
    omega

end Sys2Proof.Machine

/-! The dictionary's requests: Begin Main Load, Load Entries, End Main Load and the build (O28, O29), the staged group and Clear Job Tier (O30),
Abandon Group (O31) and Commit Group (O32). -/

namespace Sys2Proof.Machine

/-! ### The requests, carried out or refused on the state after the frame's arrival -/

section DictRequests

variable (tag : Byte) (s : State) (ht : Takes .reporter s)
include ht

theorem exec_beginMainLoad : exec (.beginMainLoad .reporter tag (.fields ())) s =
    .next (deliver .reporter Req.beginMainLoad.code tag (beginLoad () (touchPresence .reporter s))) :=
  congrArg _ (serve_takes _ _ _ _ _ s ht rfl)

theorem exec_loadEntries (rs : List RawEntry) : exec (.loadEntries .reporter tag (.fields rs)) s =
    .next (deliver .reporter Req.loadEntries.code tag (loadEntries rs (touchPresence .reporter s))) :=
  congrArg _ (serve_takes _ _ _ _ _ s ht rfl)

theorem exec_endMainLoad : exec (.endMainLoad .reporter tag (.fields ())) s =
    .next (deliver .reporter Req.endMainLoad.code tag (endLoad () (touchPresence .reporter s))) :=
  congrArg _ (serve_takes _ _ _ _ _ s ht rfl)

theorem exec_openGroup : exec (.openGroup .reporter tag (.fields ())) s =
    .next (deliver .reporter Req.openGroup.code tag (openStaged () (touchPresence .reporter s))) :=
  congrArg _ (serve_takes _ _ _ _ _ s ht rfl)

theorem exec_stageDefine (r : RawEntry) : exec (.stageDefine .reporter tag (.fields r)) s =
    .next (deliver .reporter Req.stageDefine.code tag (stageDefine r (touchPresence .reporter s))) :=
  congrArg _ (serve_takes _ _ _ _ _ s ht rfl)

theorem exec_stageRemove (k : List (BitVec 24)) : exec (.stageRemove .reporter tag (.fields k)) s =
    .next (deliver .reporter Req.stageRemove.code tag (stageRemove k (touchPresence .reporter s))) :=
  congrArg _ (serve_takes _ _ _ _ _ s ht rfl)

theorem exec_clearJobTier : exec (.clearJobTier .reporter tag (.fields ())) s =
    .next (deliver .reporter Req.clearJobTier.code tag (clearJob () (touchPresence .reporter s))) :=
  congrArg _ (serve_takes _ _ _ _ _ s ht rfl)

theorem exec_commitGroup : exec (.commitGroup .reporter tag (.fields ())) s =
    .next (deliver .reporter Req.commitGroup.code tag (commitGroup () (touchPresence .reporter s))) :=
  congrArg _ (serve_takes _ _ _ _ _ s ht rfl)

theorem exec_abandonGroup : exec (.abandonGroup .reporter tag (.fields ())) s =
    .next (deliver .reporter Req.abandonGroup.code tag (abandonGroup () (touchPresence .reporter s))) :=
  congrArg _ (serve_takes _ _ _ _ _ s ht rfl)

end DictRequests

/-! ### Commit Group -/

theorem commitGroup_full (s : State) (g : List Staged) (hg : s.dict.group = some g) (h : 2048 < countAfter s.dict.job g) :
    commitGroup () s = .done .tierFull (be 2 (countAfter s.dict.job g)) s := by
  simp [commitGroup, hg, h]

theorem commitGroup_applied (s : State) (g : List Staged) (hg : s.dict.group = some g) (h : countAfter s.dict.job g ≤ 2048) :
    commitGroup () s = .done .ok
      (be 2 (applyGroup g s).dict.groupNumber ++ be 1 (addedCount s.dict.job g) ++ be 1 (replacedKeys s.dict.job g)
        ++ be 1 (removedCount s.dict.job g) ++ be 1 (notFoundCount s.dict.job g) ++ be 2 (applyGroup g s).dict.job.length)
      (applyGroup g s) := by
  simp [commitGroup, hg, Nat.not_lt.2 h]

/-- The Dictionary Store as a group leaves it (R85). -/
def Dict.withGroup (g : List Staged) (d : Dict) : Dict :=
  { d with job := g.foldl Staged.apply d.job, groupNumber := nextGroup d.groupNumber, group := none }

theorem applyGroup_eq (g : List Staged) (s : State) : applyGroup g s =
    notifyTiers (append (commitEntry (nextGroup s.dict.groupNumber) s.dict.job g s) (setDict (s.dict.withGroup g) s)) := rfl

theorem applyGroup_dict (g : List Staged) (s : State) : (applyGroup g s).dict = s.dict.withGroup g := by
  simp [applyGroup_eq]

theorem applyGroup_trans (g : List Staged) (s : State) : (applyGroup g s).trans = { s.trans with notices := s.trans.notices + 1 } := by
  simp [applyGroup_eq, notifyTiers]

theorem applyGroup_joins (g : List Staged) (s : State) :
    EntryJoins (commitEntry (nextGroup s.dict.groupNumber) s.dict.job g s) s (applyGroup g s) :=
  (append_joins _ (setDict (s.dict.withGroup g) s)).congr rfl rfl

theorem applyGroup_sessionHeld (g : List Staged) (s : State) : SessionHeld s (applyGroup g s) :=
  fun h => append_session_eq _ (setDict (s.dict.withGroup g) s) h

/-- Settles O32: the counts are those the group was reckoned by, and the tier is read key by key after the changes. -/
theorem commitAppliesTheGroupWhole : Obligations.CommitAppliesTheGroupWhole := by
  intro tag s g held added replaced removed missing ht hg hheld hadded hreplaced hremoved hmissing
  obtain rfl : held = holdsKey s.dict.job := hheld.trans (funext fun k => (holdsKey_eq_any _ k).symm)
  obtain rfl : added = addedCount s.dict.job g := hadded
  obtain rfl : replaced = replacedKeys s.dict.job g := hreplaced
  obtain rfl : removed = removedCount s.dict.job g := hremoved
  obtain rfl : missing = notFoundCount s.dict.job g := hmissing
  have hdict : (touchPresence .reporter s).dict = s.dict := by simp
  rw [exec_commitGroup tag s ht]
  refine ⟨fun hfit => ?_, fun hfull => ?_⟩
  · rw [commitGroup_applied _ g (hdict ▸ hg) (by rwa [hdict]), deliver_done]
    refine ⟨_, rfl, ?_⟩
    have hd : (applyGroup g (touchPresence .reporter s)).dict = s.dict.withGroup g := by rw [applyGroup_dict, hdict]
    have hjoins := applyGroup_joins g (touchPresence .reporter s)
    have hsession := applyGroup_sessionHeld g (touchPresence .reporter s)
    simp only [answered_keeps, hd, hdict] at hjoins ⊢
    refine ⟨rfl, fun key => ?_, fun hj hgn => ?_, ?_, rfl, ?_, ?_, ?_, ?_⟩
    · refine (findKey_applyAll g s.dict.job key).trans ?_
      generalize (g.filter (fun c => c.key = key)).getLast? = last
      rcases last with _ | ⟨e⟩ | ⟨k⟩ <;> rfl
    · exact Nat.eq_sub_of_add_eq (length_applyAll g s.dict.job hj hgn)
    · rw [applyGroup_trans]
      simp
    · simp only [commitEntry, touchPresence_keeps] at hjoins
      exact hjoins.congr (by simp) (by simp)
    · simpa [SessionHeld] using hsession
    · simp [OutsideKept]
    · simp
  · rw [commitGroup_full _ g (hdict ▸ hg) (by rwa [hdict]), deliver_done, hdict]
    rfl

/-! ### Begin Main Load -/

/-- A tier that is not READY answers for no key (R74). -/
theorem mainEntry_of_not_ready (d : Dict) (key : List KeySet) (h : d.mainState ≠ .ready) : mainEntry d key = none := if_neg h

/-- Settles O28: the three branches of R75. -/
theorem beginMainLoadDiscardsTheMainTier : Obligations.BeginMainLoadDiscardsTheMainTier := by
  intro tag s ht
  rw [exec_beginMainLoad tag s ht]
  refine ⟨fun hs hb => ⟨_, ?_, rfl, fun key => mainEntry_of_not_ready _ key MainState.noConfusion⟩, fun hs hb => ?_, fun hs => ?_⟩
  · simp [beginLoad, hs, hb, setDict]
  · simp [beginLoad, hs, hb]
  · simp [beginLoad, hs]

/-! ### Load Entries, End Main Load and the build -/

@[simp] theorem length_replaceText (t : List Byte) : (replaceText t).length = t.length := List.length_map _

/-- The sets of a request that have bit 23 clear are not refused (R217). -/
theorem any_badSet_false (k : List (BitVec 24)) (h : ∀ x ∈ k, badSet x = false) : k.any badSet = false :=
  List.any_eq_false.2 fun x hx => by simp [h x hx]

theorem loadEntries_taken (rs : List RawEntry) (s : State) (hs : s.session.st = .standby) (hl : s.dict.mainState = .loading)
    (hne : rs ≠ []) (hlen : rs.length ≤ 16) (hgood : ∀ r ∈ rs, ∀ k ∈ r.key, badSet k = false) :
    loadEntries rs s = .done .ok (listField LoadResult.field (loadAll s.dict rs).2 ++ mainCounts (loadAll s.dict rs).1)
      (setDict (loadAll s.dict rs).1 s) := by
  have hb : rs.any (fun r => r.key.any badSet) = false :=
    List.any_eq_false.2 fun r hr => by simp [any_badSet_false _ (hgood r hr)]
  simp [loadEntries, hs, hl, hne, Nat.not_lt.2 hlen, hb]

section LoadEntry

variable (d : Dict) (r : RawEntry)

theorem loadEntry_keyInvalid (h : keyInvalid (dictEntryOf r).key = true) :
    loadEntry d r = (d, { status := .keyInvalid, replaced := false, chars := 0 }) := if_pos h

theorem loadEntry_range (hk : keyInvalid (dictEntryOf r).key = false)
    (h : 40 < r.text.length ∨ (dictEntryOf r).fmt.suppress = true) :
    loadEntry d r = (d, { status := .range, replaced := false, chars := 0 }) := by
  have h : textLimit < (dictEntryOf r).text.length ∨ (dictEntryOf r).fmt.suppress = true := by simpa [dictEntryOf] using h
  simp only [loadEntry, hk, Bool.false_eq_true, if_false, if_pos h]

variable (hk : keyInvalid (dictEntryOf r).key = false) (ht : r.text.length ≤ 40) (hs : (dictEntryOf r).fmt.suppress = false)
include hk ht hs

/-- An entry that is well formed is weighed against the two capacities (R76). -/
theorem loadEntry_wellFormed : loadEntry d r =
    if holdsKey d.main (dictEntryOf r).key = false ∧ 131072 ≤ d.main.length then
      (d, { status := .tierFull, replaced := false, chars := replacedCount r.text })
    else if 1572864 < d.poolUse + r.text.length then (d, { status := .poolFull, replaced := false, chars := replacedCount r.text })
    else
      ({ d with main := upsert (dictEntryOf r) d.main, poolUse := d.poolUse + r.text.length },
        { status := .ok, replaced := holdsKey d.main (dictEntryOf r).key, chars := replacedCount r.text }) := by
  have hl : (dictEntryOf r).text.length = r.text.length := length_replaceText _
  have h : ¬(textLimit < (dictEntryOf r).text.length ∨ (dictEntryOf r).fmt.suppress = true) := by simp [hl, ht, hs]
  simp only [loadEntry, hk, Bool.false_eq_true, if_false, if_neg h]
  rw [hl]

theorem loadEntry_tierFull (hh : holdsKey d.main (dictEntryOf r).key = false) (hm : 131072 ≤ d.main.length) :
    loadEntry d r = (d, { status := .tierFull, replaced := false, chars := replacedCount r.text }) := by
  rw [loadEntry_wellFormed d r hk ht hs, if_pos ⟨hh, hm⟩]

variable (hroom : holdsKey d.main (dictEntryOf r).key = true ∨ d.main.length < 131072)
include hroom

theorem loadEntry_poolFull (hp : 1572864 < d.poolUse + r.text.length) :
    loadEntry d r = (d, { status := .poolFull, replaced := false, chars := replacedCount r.text }) := by
  have hroom : ¬(holdsKey d.main (dictEntryOf r).key = false ∧ 131072 ≤ d.main.length) := by
    rcases hroom with h | h <;> simp [h]
  rw [loadEntry_wellFormed d r hk ht hs, if_neg hroom, if_pos hp]

theorem loadEntry_ok (hp : d.poolUse + r.text.length ≤ 1572864) :
    loadEntry d r = ({ d with main := upsert (dictEntryOf r) d.main, poolUse := d.poolUse + r.text.length },
      { status := .ok, replaced := holdsKey d.main (dictEntryOf r).key, chars := replacedCount r.text }) := by
  have hroom : ¬(holdsKey d.main (dictEntryOf r).key = false ∧ 131072 ≤ d.main.length) := by
    rcases hroom with h | h <;> simp [h]
  rw [loadEntry_wellFormed d r hk ht hs, if_neg hroom, if_neg (Nat.not_lt.2 hp)]

end LoadEntry

/-- Settles O29: the request as a whole, one entry in each of R76's cases, the order of the entries, and the build. -/
theorem mainLoadFillsAndBuildsTheTier : Obligations.MainLoadFillsAndBuildsTheTier := by
  intro tag s
  refine ⟨fun rs ht hs hl hne hlen hgood => ?_, fun d r => ⟨loadEntry_keyInvalid d r, loadEntry_range d r, loadEntry_tierFull d r,
    loadEntry_poolFull d r, loadEntry_ok d r⟩, fun d r rs => ⟨rfl, rfl⟩, fun ht hs hl => ?_, fun hb => ?_, fun hb => ?_⟩
  · rw [exec_loadEntries tag s ht, loadEntries_taken rs _ (by simpa using hs) (by simpa using hl) hne hlen hgood]
    simp [mainCounts, setDict]
  · rw [exec_endMainLoad tag s ht]
    simp [endLoad, hs, hl, mainCounts, setDict]
  · exact congrArg _ (if_pos hb)
  · exact congrArg _ (if_neg hb)

/-! ### Changes staged -/

theorem stagedFor_true (g : List Staged) (key : List KeySet) (h : ∃ x ∈ g, x.key = key) : stagedFor g key = true := by
  simpa [stagedFor] using h

theorem stagedFor_false (g : List Staged) (key : List KeySet) (h : ∀ x ∈ g, x.key ≠ key) : stagedFor g key = false := by
  simpa [stagedFor] using h

section StageChange

variable (g : List Staged) (c : Staged) (more : List Byte) (s : State)

theorem stageChange_joins (hn : ∀ x ∈ g, x.key ≠ c.key) (hlen : g.length < 32) :
    stageChange g c more s = .done .ok (be 1 (g.length + 1) ++ [0#8] ++ more) (setDict { s.dict with group := some (g ++ [c]) } s) := by
  simp [stageChange, stage, stagedFor_false g _ hn, hlen, flagByte]

theorem stageChange_replaces (hx : ∃ x ∈ g, x.key = c.key) :
    stageChange g c more s = .done .ok (be 1 g.length ++ [1#8] ++ more)
      (setDict { s.dict with group := some (g.map (fun x => if x.key = c.key then c else x)) } s) := by
  simp [stageChange, stage, stagedFor_true g _ hx, flagByte]

theorem stageChange_full (hn : ∀ x ∈ g, x.key ≠ c.key) (hlen : 32 ≤ g.length) : stageChange g c more s = refuse .tableFull s :=
  if_pos ⟨stagedFor_false g _ hn, hlen⟩

end StageChange

section Staging

variable (s : State)

theorem stageDefine_noGroup (r : RawEntry) (hg : s.dict.group = none) : stageDefine r s = refuse .wrongState s := by
  simp [stageDefine, hg]

theorem stageRemove_noGroup (k : List (BitVec 24)) (hg : s.dict.group = none) : stageRemove k s = refuse .wrongState s := by
  simp [stageRemove, hg]

variable (g : List Staged) (hg : s.dict.group = some g)
include hg

/-- With a group open, Stage Define of a key whose sets have bit 23 clear tests the key, then the text (R82). -/
theorem stageDefine_goodSets (r : RawEntry) (hb : ∀ k ∈ r.key, badSet k = false) : stageDefine r s =
    if keyInvalid (r.key.map toKeySet) then refuse .keyInvalid s
    else if 40 < r.text.length then refuse .range s
    else stageChange g (.define (dictEntryOf r)) (be 1 (replacedCount r.text)) s := by
  simp only [stageDefine, hg, any_badSet_false _ hb, Bool.false_eq_true, if_false]
  rfl

/-- A valid key is offered to the group (R82). -/
theorem stageDefine_offers (r : RawEntry) (hb : ∀ k ∈ r.key, badSet k = false) (hk : keyInvalid (r.key.map toKeySet) = false)
    (ht : r.text.length ≤ 40) : stageDefine r s = stageChange g (.define (dictEntryOf r)) (be 1 (replacedCount r.text)) s := by
  rw [stageDefine_goodSets s g hg r hb, if_neg (by simp [hk]), if_neg (Nat.not_lt.2 ht)]

theorem stageRemove_offers (k : List (BitVec 24)) (hb : ∀ x ∈ k, badSet x = false) (hk : keyInvalid (k.map toKeySet) = false) :
    stageRemove k s = stageChange g (.remove (k.map toKeySet)) [] s := by
  simp [stageRemove, hg, any_badSet_false _ hb, hk]

end Staging

/-- Settles O30: Open Group, then the two kinds of change, each offered to the group as it stands, then Clear Job Tier. -/
theorem groupRequestsStageChanges : Obligations.GroupRequestsStageChanges := by
  intro tag s ht
  have hdict : (touchPresence .reporter s).dict = s.dict := by simp
  rw [exec_openGroup tag s ht, exec_clearJobTier tag s ht]
  simp only [exec_stageDefine tag s ht, exec_stageRemove tag s ht]
  refine ⟨fun hs hg => ?_, fun hg hs => ?_, fun hs => ?_, fun r hg => ?_, fun r hg hb hk => ?_, fun r hg hb hk hl => ?_,
    fun g r hg hb hk hl hn hlen => ?_, fun g r hg hb hk hl hx => ?_, fun g r hg hb hk hl hn hlen => ?_,
    fun g k hg hb hk hn hlen => ?_, fun g k hg hb hk hx => ?_, fun g k hg hb hk hn hlen => ?_, fun hg k => ?_,
    fun hg => ?_, fun hs hg => ?_, fun hs hg => ?_⟩
  · simp [openStaged, hs, hg, setDict]
  · simp [openStaged, hs, Option.isSome_iff_ne_none.2 hg]
  · simp [openStaged, hs]
  · rw [stageDefine_noGroup _ r (hdict ▸ hg), deliver_refuse]
  · obtain ⟨g, hg⟩ := Option.ne_none_iff_exists'.1 hg
    rw [stageDefine_goodSets _ g (hdict ▸ hg) r hb, if_pos hk, deliver_refuse]
  · obtain ⟨g, hg⟩ := Option.ne_none_iff_exists'.1 hg
    rw [stageDefine_goodSets _ g (hdict ▸ hg) r hb, if_neg (by simp [hk]), if_pos hl, deliver_refuse]
  · rw [stageDefine_offers _ g (hdict ▸ hg) r hb hk hl, stageChange_joins _ _ _ _ hn hlen, deliver_done, hdict]
    rfl
  · rw [stageDefine_offers _ g (hdict ▸ hg) r hb hk hl, stageChange_replaces _ _ _ _ hx, deliver_done, hdict]
    rfl
  · rw [stageDefine_offers _ g (hdict ▸ hg) r hb hk hl, stageChange_full _ _ _ _ hn hlen, deliver_refuse]
  · rw [stageRemove_offers _ g (hdict ▸ hg) k hb hk, stageChange_joins _ _ _ _ hn hlen, deliver_done, hdict, List.append_nil]
    rfl
  · rw [stageRemove_offers _ g (hdict ▸ hg) k hb hk, stageChange_replaces _ _ _ _ hx, deliver_done, hdict, List.append_nil]
    rfl
  · rw [stageRemove_offers _ g (hdict ▸ hg) k hb hk, stageChange_full _ _ _ _ hn hlen, deliver_refuse]
  · rw [stageRemove_noGroup _ k (hdict ▸ hg), deliver_refuse]
  · simp [clearJob, Option.isSome_iff_ne_none.2 hg]
  · simp [clearJob, hs, hg]
  · simp [clearJob, hs, hg, setDict]

/-! ### Abandon Group -/

/-- Settles O31: with a group open or without. -/
theorem abandonGroupDiscardsTheChanges : Obligations.AbandonGroupDiscardsTheChanges := by
  intro tag s ht
  rw [exec_abandonGroup tag s ht]
  refine ⟨fun g hg => ?_, fun hg => ?_⟩
  · simp [abandonGroup, hg, setDict]
  · simp [abandonGroup, hg]

end Sys2Proof.Machine

/-! The expiry of a presence timer (O57). -/

namespace Sys2Proof.Machine

theorem exec_presenceTimerExpiry_due (l : Link) (s : State) (e : Nat) (h : (s.link l).timer = some e) (hd : e ≤ s.now) :
    exec (.presenceTimerExpiry l) s = .next (losePresence l s) := congrArg _ (if_pos (by simp [Timer.due, h, hd]))

theorem exec_presenceTimerExpiry_early (l : Link) (s : State) (e : Nat) (h : (s.link l).timer = some e) (hd : s.now < e) :
    exec (.presenceTimerExpiry l) s = .next s := congrArg _ (if_neg (by simp [Timer.due, h, hd]))

theorem discardGroup_open (s : State) (g : List Staged) (h : s.dict.group = some g) :
    discardGroup s = post .reporter .groupDiscarded (setDict { s.dict with group := none } s) := by
  simp [discardGroup, h]

theorem discardGroup_none (s : State) (h : s.dict.group = none) : discardGroup s = s := by
  simp [discardGroup, h]

/-- The reporter ABSENT and the bench told, before an open group is discarded (R212). -/
def reporterGone (s : State) : State :=
  { s with
    reporter := { s.reporter with present := false, timer := none }
    bench := { s.bench with attn := latch .reporterPresence s.bench.attn } }

theorem losePresence_reporter (s : State) : losePresence .reporter s = discardGroup (reporterGone s) := rfl

/-- Settles O57: the reporter's expiry with a group open and without, the bench's, and an expiry before its time. -/
theorem presenceLossIsTold : Obligations.PresenceLossIsTold := by
  intro s e
  refine ⟨fun g ht hd hg => ?_, fun ht hd hg => ?_, fun ht hd => ?_, fun l ht hd => exec_presenceTimerExpiry_early l s e ht hd⟩
  · rw [exec_presenceTimerExpiry_due .reporter s e ht hd, losePresence_reporter, discardGroup_open (reporterGone s) g hg]
    rfl
  · rw [exec_presenceTimerExpiry_due .reporter s e ht hd, losePresence_reporter, discardGroup_none (reporterGone s) hg]
    rfl
  · rw [exec_presenceTimerExpiry_due .bench s e ht hd]
    rfl

end Sys2Proof.Machine

/-! Set Translation Parameters (O53). -/

namespace Sys2Proof.Machine

theorem exec_setTranslationParameters (tag : Byte) (s : State) (a : ParamArgs) (ht : Takes .reporter s) :
    exec (.setTranslationParameters .reporter tag (.fields a)) s =
      .next (deliver .reporter Req.setTranslationParameters.code tag (setParams a (touchPresence .reporter s))) :=
  congrArg _ (serve_takes _ _ _ _ _ s ht rfl)

/-- A value given is clamped where it is applied, and else keeps its setting (R207). -/
theorem param_some (applies : Bool) (clamp : Nat → Nat) (old v : Nat) :
    (param applies clamp old (some v)).1 = if applies then clamp v else old := by
  cases applies <;> rfl

/-- Settles O53: all eight values given, in STANDBY and in the other states, and none given. -/
theorem parametersAreApplied : Obligations.ParametersAreApplied := by
  intro tag s r w p d i g rp bp ht
  refine ⟨⟨_, _, exec_setTranslationParameters tag s _ ht, ?_⟩, ⟨_, exec_setTranslationParameters tag s _ ht⟩⟩
  simp only [param_some, touchPresence_keeps, if_true, clampResolution, decide_eq_true_eq]
  by_cases hs : s.session.st = .standby
  · simp only [hs, if_true]
  · simp only [hs, if_false]

end Sys2Proof.Machine

/-! Units placed one after another, as a pass places them: the carry state, the history and the lines after them (R95, R102 to R109, R123). -/

namespace Sys2Proof.Machine

/-! ### One unit placed -/

/-- Placing a unit sets the carry state and the history, and nothing else of the Translator (R104, R105, R109). -/
theorem placeUnit_trans (keep : Bool) (u : Formed) (s : State) :
    (placeUnit keep u s).trans = { s.trans with
      carry := carryAfter s.trans.carry u.text u.fmt
      history := (placeFormed u s).settled.foldl (fun h n => prune n h)
        (if keep then pushUnit (unitOf u s (placeFormed u s)) s.trans.history else s.trans.history) } := by
  simp [placeUnit, takeSettled]

/-- The Line Store after a unit is what the Line Builder made of it. -/
theorem placeUnit_lines (keep : Bool) (u : Formed) (s : State) : (placeUnit keep u s).lines = (placeFormed u s).s.lines := rfl

theorem foldl_prune_suffix (ns : List Nat) (h : List TUnit) : ns.foldl (fun h n => prune n h) h <:+ h := by
  induction ns generalizing h with
  | nil => exact List.suffix_rfl
  | cons n ns ih => exact (ih (prune n h)).trans (List.dropWhile_suffix _)

theorem pushUnit_suffix (u : TUnit) (h : List TUnit) : pushUnit u h <:+ h ++ [u] := by
  unfold pushUnit
  split
  · exact List.drop_suffix 1 _
  · exact List.suffix_rfl

/-- A unit's record but for its place in the lines. -/
def TUnit.bare (u : TUnit) : TUnit := { u with placement := none, anchor := none }

/-- The record a unit enters the history with, where its text is not capitalized and it has a placement (R102, R108). -/
def Formed.unit (u : Formed) (c : Carry) (p : Placement) : TUnit :=
  { strokes := u.strokes, kind := u.kind, text := u.text, fmt := u.fmt, cls := unitClass u.strokes
    before := c, placement := some p, anchor := some p.serial }

theorem unitOf_bare (u : Formed) (s : State) (p : Placed) : [(unitOf u s p).bare] = unitsFrom s.trans.carry [u] := rfl

theorem unitOf_placed (u : Formed) (s s' : State) (p : Placement) (ns : List Nat) (hc : s.trans.carry.cap = false) :
    unitOf u s { s := s', placement := some p, settled := ns } = u.unit s.trans.carry p := by
  simp [unitOf, Formed.unit, Formed.shown, hc]

/-- A unit with a placement enters the history, which is then pruned at the lines settled (R102, R104, R105). -/
theorem placeUnit_history (u : Formed) (s s' : State) (p : Placement) (ns : List Nat) (hc : s.trans.carry.cap = false)
    (h : placeFormed u s = { s := s', placement := some p, settled := ns }) :
    (placeUnit true u s).trans.history = historyWith (u.unit s.trans.carry p) ns s.trans.history := by
  rw [placeUnit_trans, h, unitOf_placed u s s' p ns hc, historyWith_eq]
  rfl

/-- The history after a unit is made of the units before it and the unit, but for some from the oldest end (R104, R105). -/
theorem placeUnit_history_bare (u : Formed) (s : State) :
    (placeUnit true u s).trans.history.map TUnit.bare <:+ s.trans.history.map TUnit.bare ++ unitsFrom s.trans.carry [u] := by
  rw [placeUnit_trans, ← unitOf_bare u s (placeFormed u s)]
  simpa using ((foldl_prune_suffix _ _).trans (pushUnit_suffix (unitOf u s (placeFormed u s)) s.trans.history)).map TUnit.bare

/-! ### The strokes of a pass -/

/-- The state with the lookahead replaced. -/
abbrev setLookahead (ks : List TStroke) (s : State) : State := setTrans { s.trans with lookahead := ks } s

/-- Units placed one after another, each after the lookahead has been set to what remains behind it. -/
inductive Places (keep : Bool) : List Formed → State → State → Prop where
  | done (s : State) : Places keep [] s s
  | unit (u : Formed) (us : List Formed) (rest : List TStroke) (s t : State) :
      Places keep us (placeUnit keep u (setLookahead rest s)) t → Places keep (u :: us) s t

/-- What a pass with enough steps for its strokes makes of the units it forms: it places them, and leaves what remains. -/
def PassPlaces (flush keep : Bool) (us : List Formed) (rest : List TStroke) (n : Nat) (s : State) : Prop :=
  Places keep us s (pass flush keep n s) ∧ (pass flush keep n s).trans.lookahead = rest

/-- A pass that places its first unit and goes on. -/
theorem passPlaces_goes (flush keep : Bool) (u : Formed) (us : List Formed) (r rest : List TStroke) (n : Nat) (s : State)
    (hn : s.trans.lookahead.length ≤ n) (hgo : PassGoes s.dict flush s.trans.lookahead)
    (hu : formFront s.dict s.trans.lookahead = (u, r)) (hr : r.length < s.trans.lookahead.length)
    (ih : ∀ (n : Nat) (x : State), x.dict = s.dict → x.trans.lookahead = r → r.length ≤ n → PassPlaces flush keep us rest n x) :
    PassPlaces flush keep (u :: us) rest n s := by
  obtain ⟨n, rfl⟩ := Nat.exists_eq_succ_of_ne_zero (n := n) (by omega)
  unfold PassPlaces
  rw [pass_goes flush keep n s u r (List.ne_nil_of_length_pos (by omega)) hgo hu]
  obtain ⟨h1, h2⟩ := ih n (placeUnit keep u (setLookahead r s)) (by simp) (by simp [placeUnit_lookahead]) (by omega)
  exact ⟨.unit u us r s _ h1, h2⟩

/-- A pass places the units it forms, and leaves what remains (R95, R96, R98). -/
theorem pass_places (keep : Bool) {d : Dict} {flush : Bool} {ks : List TStroke} {us : List Formed} {rest : List TStroke}
    (h : PassForms d flush ks us rest) (n : Nat) (s : State) (hd : s.dict = d) (hk : s.trans.lookahead = ks) (hn : ks.length ≤ n) :
    PassPlaces flush keep us rest n s := by
  induction h generalizing n s with
  | ends =>
    have e : pass flush keep n s = s := by cases n <;> simp [pass, hk]
    unfold PassPlaces
    rw [e]
    exact ⟨.done s, hk⟩
  | waits ks hne hgo =>
    unfold PassPlaces
    rw [pass_waits flush keep n s (by rwa [hd, hk])]
    exact ⟨.done s, hk⟩
  | entry ks k e us rest hgo h0 hle he hf _ ih =>
    subst hd hk
    exact passPlaces_goes flush keep _ us _ rest n s hn hgo (formFront_entry _ _ e k h0 hle he hf) (by simp; omega) ih
  | untranslate b bs us rest hgo hf _ ih =>
    subst hd
    exact passPlaces_goes flush keep _ us bs rest n s (hk ▸ hn) (hk ▸ hgo) (hk ▸ formFront_untranslate _ b bs hf) (by simp [hk]) ih

/-- What no pass touches of the Translator. -/
@[simp] theorem pass_trans_keeps (flush keep : Bool) (n : Nat) (s : State) :
    (pass flush keep n s).trans.timer = s.trans.timer ∧ (pass flush keep n s).trans.setting = s.trans.setting ∧
    (pass flush keep n s).trans.handed = s.trans.handed ∧ (pass flush keep n s).trans.notices = s.trans.notices := by
  induction n generalizing s with
  | zero => simp [pass]
  | succ n ih =>
    simp only [pass]
    repeat' split
    all_goals simp [ih, placeUnit_trans]

/-! ### The carry state and the history after the units -/

section Placed
variable {keep : Bool} {us : List Formed} {s t : State}

theorem Places.carry (h : Places keep us s t) : t.trans.carry = carryThrough s.trans.carry us := by
  induction h with
  | done s => rfl
  | unit u us rest s t _ ih =>
    rw [ih, placeUnit_carry]
    rfl

/-- The history is made of the units it held and of those placed, but for some from the oldest end (R102, R104, R105). -/
theorem Places.history (h : Places true us s t) :
    t.trans.history.map TUnit.bare <:+ s.trans.history.map TUnit.bare ++ unitsFrom s.trans.carry us := by
  induction h with
  | done s => simp [unitsFrom]
  | unit u us rest s t _ ih =>
    obtain ⟨old, hone⟩ := placeUnit_history_bare u (setLookahead rest s)
    rw [placeUnit_carry] at ih
    refine ih.trans ⟨old, ?_⟩
    rw [← List.append_assoc, hone, List.append_assoc]
    rfl

/-- Units that do not enter the history leave it, but for what settlement notices prune (R105, R116). -/
theorem Places.history_late (h : Places false us s t) : t.trans.history <:+ s.trans.history := by
  induction h with
  | done s => exact List.suffix_rfl
  | unit u us rest s t _ ih =>
    refine ih.trans ?_
    rw [placeUnit_trans]
    exact foldl_prune_suffix _ _

theorem Places.passLeft (h : Places true us s t) {rest : List TStroke} (hr : t.trans.lookahead = rest) :
    PassLeft us rest s.trans.carry s.trans.history t := by
  refine ⟨hr, h.carry, ?_, h.history⟩
  rintro rfl
  cases h
  rfl

end Placed

end Sys2Proof.Machine

/-! A word placed on an open line, in a line opened for it, and words placed one after another (R108, R122 to R127). -/

namespace Sys2Proof.Machine

/-! ### A word on an open line with room -/

/-- The unit's text and flags, as the dictionary would hold them. -/
def Formed.asEntry (u : Formed) : DictEntry := { key := [], text := u.text, fmt := u.fmt }

/-- The placement request of a unit with text (R106, R108). -/
def placeReq (u : Formed) (c : Carry) : PlaceReq :=
  { text := u.shown c, sep := wantsSep c u.fmt, closeFirst := u.fmt.newLine, cls := unitClass u.strokes
    first := (unitEnds u).1, last := (unitEnds u).2 }

theorem placeFormed_text (u : Formed) (s : State) (h : u.text ≠ []) : placeFormed u s = place (placeReq u s.trans.carry) s := if_neg h

/-- A unit's text is shown as it stands where no capital is asked for (R108). -/
theorem shown_plain (u : Formed) (c : Carry) (h : c.cap = false) : u.shown c = u.text := by simp [Formed.shown, h]

/-- A word's request under a clear carry state: its text as it stands, with a separator and no new line (R108). -/
theorem placeReq_word (u : Formed) (s : State) (h : OneWord u.asEntry s) :
    (placeReq u s.trans.carry).text = u.text ∧ (placeReq u s.trans.carry).sep = true ∧
      (placeReq u s.trans.carry).closeFirst = false := by
  obtain ⟨-, -, hnl, hal, hc⟩ := h
  have hal' : u.fmt.attachLeft = false := hal
  exact ⟨shown_plain u _ (by simp [hc]), by simp [placeReq, wantsSep, hc, hal'], hnl⟩

/-- The line with the unit's word behind a separator at its end (R123, R127). -/
def Line.joined (u : Formed) (l : Line) : Line := l.extend (0x20#8 :: u.text) false (unitEnds u).1 (unitEnds u).2

/-- Where a word stands that joined the line's end (R127). -/
def joinedAt (u : Formed) (n : Nat) (l : Line) : Placement :=
  { serial := n, column := l.text.length, count := u.text.length + 1, opening := .continued }

theorem placeFormed_joins (u : Formed) (s : State) (n : Nat) (l : Line) (h : WordFits u.asEntry (unitClass u.strokes) n l s) :
    placeFormed u s =
      { s := setRecords (updateLine n (Line.joined u) s.lines.records) s, placement := some (joinedAt u n l), settled := [] } := by
  obtain ⟨hw, ho, hl, -, hcls, hroom⟩ := h
  obtain ⟨ht, hs, hc⟩ := placeReq_word u s hw
  rw [placeFormed_text u s hw.1, place_joins _ s n l (ht ▸ hw.1) (ht ▸ hw.2.1) hs hc ho hl hcls (ht ▸ hroom), ht]
  rfl

section Joins
variable {keep : Bool} {u : Formed} {s : State} {n : Nat} {l : Line}

theorem placeUnit_joins (h : WordFits u.asEntry (unitClass u.strokes) n l s) :
    (placeUnit keep u s).lines = { s.lines with records := updateLine n (Line.joined u) s.lines.records } := by
  rw [placeUnit_lines, placeFormed_joins u s n l h]
  rfl

theorem findLine_placeUnit_joins (h : WordFits u.asEntry (unitClass u.strokes) n l s) :
    findLine (placeUnit keep u s).lines.records n = some (l.joined u) := by
  have ⟨_, _, hl, _⟩ := h
  have hn : l.serial = n := by simpa using List.find?_some hl
  rw [placeUnit_joins h, findLine_updateLine n n (Line.joined u) (fun _ => rfl), hl, Option.map_some, if_pos hn]

/-- The word stands at the end of the open line (R123, R127). -/
theorem placeUnit_wordJoined (h : WordFits u.asEntry (unitClass u.strokes) n l s) :
    WordJoined u.asEntry n l (unitEnds u).1 (unitEnds u).2 (placeUnit keep u s) := by
  have ⟨_, ho, _, hst, _⟩ := h
  refine ⟨?_, l.joined u, findLine_placeUnit_joins h, rfl, rfl, rfl, rfl, hst, rfl, rfl, rfl⟩
  rw [placeUnit_joins h]
  exact ho

theorem placeUnit_joins_history (h : WordFits u.asEntry (unitClass u.strokes) n l s) :
    (placeUnit true u s).trans.history = historyWith (u.unit s.trans.carry (joinedAt u n l)) [] s.trans.history :=
  have ⟨⟨_, _, _, _, hc⟩, _⟩ := h
  placeUnit_history u s _ _ _ (by rw [hc]) (placeFormed_joins u s n l h)

end Joins

/-! ### Words on an open line with room for all -/

section Words
variable {us : List Formed} {n : Nat} {l : Line} {s t : State}

/-- The first of words that fit is one that fits (R123). -/
theorem WordsFit.first {u : Formed} (h : WordsFit (u :: us) n l s) : WordFits u.asEntry (unitClass u.strokes) n l s := by
  obtain ⟨hc, ho, hl, hst, hu, hroom⟩ := h
  obtain ⟨⟨hne, hsp, hf, hcls⟩, -⟩ := List.forall_mem_cons.1 hu
  have hf' : u.asEntry.fmt = Fmt.none := hf
  refine ⟨⟨hne, hsp, by rw [hf']; rfl, by rw [hf']; rfl, hc⟩, ho, hl, hst, hcls.symm, ?_⟩
  simp only [List.map_cons, List.sum_cons] at hroom
  show l.text.length + 1 + u.text.length ≤ s.lines.width
  omega

/-- Once the first word has joined the line, the others fit it (R123). -/
theorem WordsFit.after_first {u : Formed} (keep : Bool) (h : WordsFit (u :: us) n l s) :
    WordsFit us n (l.joined u) (placeUnit keep u s) := by
  have h1 := h.first
  obtain ⟨hc, ho, hl, hst, hu, hroom⟩ := h
  obtain ⟨⟨hne, -, hf, -⟩, hus⟩ := List.forall_mem_cons.1 hu
  refine ⟨?_, ?_, findLine_placeUnit_joins h1, hst, hus, ?_⟩
  · rw [placeUnit_carry, carryAfter, if_neg hne, hf]
    rfl
  · rw [placeUnit_joins h1]
    exact ho
  · rw [placeUnit_joins h1]
    simp only [List.map_cons, List.sum_cons] at hroom
    simp only [Line.joined, Line.extend, List.length_append, List.length_cons]
    omega

/-- The line with the words at its end, each a revision and a run more (R123, R127). -/
def LineHolds (us : List Formed) (n : Nat) (l : Line) (t : State) : Prop :=
  t.lines.openLine = some n ∧ ∃ x, findLine t.lines.records n = some x ∧ x.text = textWith us l ∧ x.state = .opn ∧ x.cls = l.cls ∧
    x.revision = us.foldl (fun r _ => if r < 65535 then r + 1 else 65535) l.revision ∧
    x.runs.map (fun r => (r.first, r.last)) = l.runs.map (fun r => (r.first, r.last)) ++ us.map unitEnds

theorem Places.lineHolds {keep : Bool} (h : Places keep us s t) (hf : WordsFit us n l s) : LineHolds us n l t := by
  induction h generalizing l with
  | done s =>
    obtain ⟨-, ho, hl, hst, -⟩ := hf
    exact ⟨ho, l, hl, by simp [textWith], hst, rfl, rfl, by simp⟩
  | unit u us rest s t _ ih =>
    obtain ⟨ho, x, hx, htext, hst, hcls, hrev, hruns⟩ := ih (WordsFit.after_first keep hf)
    refine ⟨ho, x, hx, ?_, hst, hcls, hrev, ?_⟩
    · simp [htext, textWith, Line.joined, Line.extend]
    · simp [hruns, Line.joined, Line.extend]

theorem Places.words_history (h : Places true us s t) (hf : WordsFit us n l s) :
    t.trans.history = (wordUnits n l.text.length us).foldl (fun h u => historyWith u [] h) s.trans.history := by
  induction h generalizing l with
  | done s => rfl
  | unit u us rest s t _ ih =>
    rw [ih (WordsFit.after_first true hf), placeUnit_joins_history (WordsFit.first (s := setLookahead rest s) hf)]
    have hc : s.trans.carry = { cap := false, attach := false, glue := false } := hf.1
    simp [wordUnits, Line.joined, Line.extend, Formed.unit, joinedAt, hc]

theorem Places.wordsJoined (h : Places true us s t) (hf : WordsFit us n l s) : WordsJoined us n l s t :=
  have hl := h.lineHolds hf
  ⟨hl.1, h.words_history hf, hl.2⟩

end Words

/-! ### A word in a line opened for it -/

/-- Where a word stands alone in a line opened for it (R127). -/
def opensAt (o : Opening) (u : Formed) (s : State) : Placement :=
  { serial := s.lines.counter + 1, column := 0, count := u.text.length, opening := o }

/-- A word alone in a line just opened, on the numbers as they stood before (R125, R126, R127). -/
theorem withWord_opened (r : PlaceReq) (e : DictEntry) (s x t : State) (ht : t.lines = (withWord r x).lines) (htext : r.text = e.text)
    (hc : x.lines.counter = s.lines.counter) (hp : x.lines.pageLen = s.lines.pageLen) (hnp : x.lines.nextPage = s.lines.nextPage)
    (hnl : x.lines.nextLine = s.lines.nextLine) (hnew : findLine x.lines.records (x.lines.counter + 1) = none) :
    WordOpened e r.cls r.first r.last s t := by
  unfold WordOpened
  rw [ht, ← hc, ← hp, ← hnp, ← hnl]
  exact ⟨rfl, rfl, wordLine r x, findLine_withWord r x hnew, htext, rfl, rfl, rfl, rfl, rfl, rfl, rfl, rfl⟩

theorem placeFormed_forces (u : Formed) (s : State) (hne : u.text ≠ []) (hsp : 0x20#8 ∉ u.text) (hnl : u.fmt.newLine = false)
    (hcap : s.trans.carry.cap = false) (ho : s.lines.openLine = none) (hw : u.text.length ≤ s.lines.width)
    (hmax : s.lines.counter < 4294967295)
    (hnew : findLine (withRoom s).lines.records ((withRoom s).lines.counter + 1) = none) :
    placeFormed u s = { s := withWord (placeReq u s.trans.carry) (withRoom s), placement := some (opensAt .forced u (withRoom s))
                        settled := [] } := by
  have ht : (placeReq u s.trans.carry).text = u.text := shown_plain u _ hcap
  rw [placeFormed_text u s hne, place_forces _ s (ht ▸ hne) (ht ▸ hsp) hnl ho (ht ▸ hw) hmax hnew, ht]
  rfl

theorem withRoom_of_room (s : State) (h : s.lines.records.length < 4096) : withRoom s = s := if_neg (Nat.not_le.2 h)

/-- A single word with no line open, and room in the store, stands alone in a line opened FORCED (R102, R104, R123, R125). -/
theorem placeUnit_opens (keep : Bool) (u : Formed) (s : State) (hne : u.text ≠ []) (hsp : 0x20#8 ∉ u.text) (hnl : u.fmt.newLine = false)
    (hcap : s.trans.carry.cap = false) (ho : s.lines.openLine = none) (hw : u.text.length ≤ s.lines.width)
    (hmax : s.lines.counter < 4294967295) (hroom : s.lines.records.length < 4096)
    (hnew : findLine s.lines.records (s.lines.counter + 1) = none) :
    WordOpened u.asEntry (unitClass u.strokes) (unitEnds u).1 (unitEnds u).2 s (placeUnit keep u s) ∧
      (placeUnit true u s).trans.history =
        historyWith (u.unit s.trans.carry (opensAt .forced u s)) [] s.trans.history := by
  have hr := withRoom_of_room s hroom
  have e := placeFormed_forces u s hne hsp hnl hcap ho hw hmax (by rwa [hr])
  rw [hr] at e
  exact ⟨withWord_opened _ u.asEntry s s _ (congrArg (·.s.lines) e) (shown_plain u _ hcap) rfl rfl rfl rfl hnew,
    placeUnit_history u s _ _ _ hcap e⟩

/-! ### What the feeds leave of the word -/

theorem WordJoined.fed {e : DictEntry} {n a b : Nat} {l : Line} {t t' : State} (hf : LinesFed t t') (h : WordJoined e n l a b t) :
    WordJoined e n l a b t' := by
  obtain ⟨ho, x, hx, h1, h2, h3, h4, hst, h5, h6, h7⟩ := h
  obtain ⟨y, hy, hb⟩ := hf.1.find hx (by simp [hst])
  obtain ⟨-, bpage, bline, bcls, bst, brev, btext, brange, -, bruns⟩ := Line.body_inj hb
  exact ⟨by rw [hf.2]; exact ho, y, hy, btext.trans h1, brev.trans h2, bruns.trans h3, brange.trans h4, bst.trans hst, bcls.trans h5,
    bpage.trans h6, bline.trans h7⟩

theorem LineHolds.fed {us : List Formed} {n : Nat} {l : Line} {t t' : State} (hf : LinesFed t t') (h : LineHolds us n l t) :
    LineHolds us n l t' := by
  obtain ⟨ho, x, hx, h1, hst, h2, h3, h4⟩ := h
  obtain ⟨y, hy, hb⟩ := hf.1.find hx (by simp [hst])
  obtain ⟨-, -, -, bcls, bst, brev, btext, -, -, bruns⟩ := Line.body_inj hb
  exact ⟨by rw [hf.2]; exact ho, y, hy, btext.trans h1, bst.trans hst, bcls.trans h2, brev.trans h3, by rw [bruns, h4]⟩

theorem WordOpened.fed {e : DictEntry} {c : Cls} {a b : Nat} {s t t' : State} (hf : LinesFed t t') (h : WordOpened e c a b s t) :
    WordOpened e c a b s t' := by
  obtain ⟨hc, ho, x, hx, h1, h2, hst, h3, h4, h5, h6, h7, h8⟩ := h
  obtain ⟨y, hy, hb⟩ := hf.1.find hx (by simp [hst])
  obtain ⟨-, bpage, bline, bcls, bst, brev, btext, brange, bed, bruns⟩ := Line.body_inj hb
  refine ⟨by rw [hf.2]; exact hc, by rw [hf.2]; exact ho, y, hy, btext.trans h1, brev.trans h2, bst.trans hst, bcls.trans h3, bed.trans h4,
    brange.trans h5, bruns.trans h6, ?_, ?_⟩
  · rw [bpage, bline]
    exact h7
  · rw [hf.2, bpage, bline]
    exact h8

theorem WordsJoined.fed {us : List Formed} {n : Nat} {l : Line} {s t t' : State} (hf : LinesFed t t')
    (hh : t'.trans.history = t.trans.history) (h : WordsJoined us n l s t) : WordsJoined us n l s t' :=
  have hl := LineHolds.fed hf ⟨h.1, h.2.2⟩
  ⟨hl.1, hh.trans h.2.1, hl.2⟩

/-! ### The units of a pass placed -/

/-- What becomes of the text of the units placed (R102, R104, R123, R125, R127). -/
theorem Places.unitsPlaced {us : List Formed} {s t : State} (h : Places true us s t) : UnitsPlaced us s t := by
  refine ⟨fun n l hf => h.wordsJoined hf, ?_⟩
  rintro u rfl ho hne hsp hnl hcap hw hmax hroom hnew
  cases h with
  | unit _ _ rest _ _ h =>
    cases h
    exact placeUnit_opens true u (setLookahead rest s) hne hsp hnl hcap ho hw hmax hroom hnew

theorem UnitsPlaced.fed {us : List Formed} {s t t' : State} (hf : LinesFed t t') (hh : t'.trans.history = t.trans.history)
    (h : UnitsPlaced us s t) : UnitsPlaced us s t' := by
  refine ⟨fun n l hw => (h.1 n l hw).fed hf hh, fun u e ho hne hsp hnl hcap hw hmax hroom hnew => ?_⟩
  obtain ⟨h1, h2⟩ := h.2 u e ho hne hsp hnl hcap hw hmax hroom hnew
  exact ⟨h1.fed hf, hh.trans h2⟩

/-- One unit placed alone. -/
theorem Places.single {keep : Bool} {u : Formed} {s t : State} (h : Places keep [u] s t) :
    ∃ rest, t = placeUnit keep u (setLookahead rest s) := by
  cases h with
  | unit _ _ rest _ _ h =>
    cases h
    exact ⟨rest, rfl⟩

/-- The one unit of a pass, a word that fits the open line, stands at its end (R123, R127). -/
theorem Places.wordJoined {keep : Bool} {u : Formed} {s t : State} (h : Places keep [u] s t) {n : Nat} {l : Line}
    (hw : WordFits u.asEntry (unitClass u.strokes) n l s) : WordJoined u.asEntry n l (unitEnds u).1 (unitEnds u).2 t := by
  obtain ⟨rest, rfl⟩ := h.single
  exact placeUnit_wordJoined (s := setLookahead rest s) hw

end Sys2Proof.Machine

/-! The passes of the Translator: on a tier-change notice (O36) and at the resolution timer's expiry (O35). -/

namespace Sys2Proof.Machine

/-! ### The units of simple passes -/

/-- The unit of strokes that resolve to an entry (R96). -/
def entryUnit (ks : List TStroke) (e : DictEntry) : Formed := { strokes := ks, kind := .entry, text := e.text, fmt := e.fmt }

/-- The untranslate of a stroke (R101). -/
def untranslated (b : TStroke) : Formed := { strokes := [b], kind := .untranslate, text := writtenForm b.press, fmt := Fmt.none }

/-- Strokes that resolve whole form one unit (R95, step 3). -/
theorem passForms_whole {d : Dict} {flush : Bool} {ks : List TStroke} {e : DictEntry} (hne : ks ≠ []) (hgo : PassGoes d flush ks)
    (he : (resolve d (ks.map (·.press))).entry = some e) : PassForms d flush ks [entryUnit ks e] [] := by
  have h := PassForms.entry ks ks.length e [] [] hgo (List.length_pos_of_ne_nil hne) (Nat.le_refl _) (by rwa [List.take_length])
    (fun j h1 h2 => absurd h2 (by omega)) (by rw [List.drop_length]; exact .ends)
  rwa [List.take_length] at h

/-- A single stroke that does not resolve forms an untranslate (R95, step 4). -/
theorem passForms_single {d : Dict} {flush : Bool} {b : TStroke} (hgo : PassGoes d flush [b]) (hr : (resolve d [b.press]).entry = none) :
    PassForms d flush [b] [untranslated b] [] :=
  .untranslate b [] [] [] hgo (fun j h1 h2 => by
    obtain rfl : j = 1 := by simp at h2; omega
    exact hr) .ends

theorem unitEnds_entryUnit (b : TStroke) (bs : List TStroke) (e : DictEntry) :
    unitEnds (entryUnit (b :: bs) e) = (b.seq, ((b :: bs).getLast (by simp)).seq) := by
  simp [unitEnds, entryUnit, List.getLast?_eq_some_getLast]

/-! ### A resolution pass, the timer after it and the feeds' choices -/

/-- A resolution pass, the timer set by what the event has made of the lookahead, and the feeds' choices (R95, R97, R163). -/
def passedOn (before : List TStroke) (s : State) : State := chooseAll (setTimer before (resolvePass s))

theorem setTimer_trans (before : List TStroke) (s : State) :
    (setTimer before s).trans = { s.trans with
      timer :=
        if s.trans.lookahead = before then s.trans.timer
        else if s.trans.lookahead = [] ∨ s.trans.setting = 0 then none else some (s.now + s.trans.setting) } := by
  unfold setTimer
  split <;> rfl

@[simp] theorem resolvePass_trans_keeps (s : State) :
    (resolvePass s).trans.timer = s.trans.timer ∧ (resolvePass s).trans.setting = s.trans.setting ∧
    (resolvePass s).trans.handed = s.trans.handed ∧ (resolvePass s).trans.notices = s.trans.notices := by simp [resolvePass]

theorem passedOn_trans (before : List TStroke) (s : State) :
    (passedOn before s).trans = { (resolvePass s).trans with
      timer :=
        if (resolvePass s).trans.lookahead = before then s.trans.timer
        else if (resolvePass s).trans.lookahead = [] ∨ s.trans.setting = 0 then none else some (s.now + s.trans.setting) } := by
  have hc : (passedOn before s).trans = (setTimer before (resolvePass s)).trans := by simp [passedOn]
  have hnow : (resolvePass s).now = s.now := by simp
  obtain ⟨htimer, hset, -⟩ := resolvePass_trans_keeps s
  rw [hc, setTimer_trans, htimer, hset, hnow]

theorem passedOn_fed (before : List TStroke) (s : State) : LinesFed (resolvePass s) (passedOn before s) :=
  (LinesFed.of_eq (by simp)).trans (chooseAll_fed (setTimer before (resolvePass s)))

@[simp] theorem passedOn_trans_keeps (before : List TStroke) (s : State) :
    (passedOn before s).trans.setting = s.trans.setting ∧ (passedOn before s).trans.handed = s.trans.handed ∧
    (passedOn before s).trans.notices = s.trans.notices := by
  simp [passedOn_trans]

theorem passedOn_upstream (before : List TStroke) (s : State) : UpstreamKept s (passedOn before s) := by
  simp [UpstreamKept, OutsideKept, passedOn]

theorem PassLeft.of_trans {us : List Formed} {rest : List TStroke} {c : Carry} {h : List TUnit} {t t' : State}
    (hl : t'.trans.lookahead = t.trans.lookahead) (hc : t'.trans.carry = t.trans.carry) (hh : t'.trans.history = t.trans.history)
    (hp : PassLeft us rest c h t) : PassLeft us rest c h t' := by
  unfold PassLeft
  rwa [hl, hc, hh]

section Passed
variable {s : State} {us : List Formed} {rest : List TStroke}

theorem resolvePass_places (h : PassForms s.dict false s.trans.lookahead us rest) :
    Places true us s (resolvePass s) ∧ (resolvePass s).trans.lookahead = rest := pass_places true h _ s rfl rfl (Nat.le_refl _)

/-- What the pass has left, what the timer does, and where the units' text stands (R95 to R97, R102 to R105, R109, R123). -/
theorem passedOn_outcome (before : List TStroke) (h : PassForms s.dict false s.trans.lookahead us rest) :
    PassLeft us rest s.trans.carry s.trans.history (passedOn before s) ∧ TimerFollows before rest s (passedOn before s) ∧
      UnitsPlaced us s (passedOn before s) := by
  obtain ⟨hp, hl⟩ := resolvePass_places h
  have ht := passedOn_trans before s
  refine ⟨(hp.passLeft hl).of_trans (by rw [ht]) (by rw [ht]) (by rw [ht]), ?_, hp.unitsPlaced.fed (passedOn_fed before s) (by rw [ht])⟩
  rw [TimerFollows, ht, hl]

/-- The one unit of a pass, a word that fits the open line, stands at its end (R123, R127). -/
theorem passedOn_wordJoined {u : Formed} (before : List TStroke) (h : PassForms s.dict false s.trans.lookahead [u] rest) {n : Nat} {l : Line}
    (hw : WordFits u.asEntry (unitClass u.strokes) n l s) :
    WordJoined u.asEntry n l (unitEnds u).1 (unitEnds u).2 (passedOn before s) :=
  ((resolvePass_places h).1.wordJoined hw).fed (passedOn_fed before s)

end Passed

/-- The pass of strokes that resolve whole, where it does not wait: one unit, nothing left, and the timer stopped (R95, R97). -/
theorem passedOn_whole (before : List TStroke) (s : State) (e : DictEntry) (hne : s.trans.lookahead ≠ []) (hb : before ≠ [])
    (hgo : 6 ≤ s.trans.lookahead.length ∨ extendable s.dict (s.trans.lookahead.map (·.press)) = false)
    (he : (resolve s.dict (s.trans.lookahead.map (·.press))).entry = some e) :
    (passedOn before s).trans.lookahead = [] ∧ (passedOn before s).trans.timer = none ∧
      (passedOn before s).trans.carry = carryAfter s.trans.carry e.text e.fmt := by
  obtain ⟨⟨hl, hc, -⟩, ht, -⟩ := passedOn_outcome before (passForms_whole hne (.inr hgo) he)
  exact ⟨hl, ht.trans (by simp [Ne.symm hb]), hc⟩

/-- The word of strokes that resolve whole, where it fits the open line, stands at its end (R123, R127). -/
theorem passedOn_wholeWord (before : List TStroke) (s : State) (b : TStroke) (bs : List TStroke) (e : DictEntry)
    (hb : s.trans.lookahead = b :: bs)
    (hgo : 6 ≤ s.trans.lookahead.length ∨ extendable s.dict (s.trans.lookahead.map (·.press)) = false)
    (he : (resolve s.dict (s.trans.lookahead.map (·.press))).entry = some e) (n : Nat) (l : Line)
    (hw : WordFits e (unitClass s.trans.lookahead) n l s) :
    WordJoined e n l b.seq ((b :: bs).getLast (by simp)).seq (passedOn before s) := by
  have h := passedOn_wordJoined before (passForms_whole (by simp [hb]) (.inr hgo) he) hw
  rwa [hb, unitEnds_entryUnit] at h

/-- A pass on strokes that are none, or extendable and fewer than 6, waits (R95, step 2). -/
theorem resolvePass_waits (s : State) (h : s.trans.lookahead = [] ∨
    (s.trans.lookahead.length < 6 ∧ extendable s.dict (s.trans.lookahead.map (·.press)) = true)) : resolvePass s = s := by
  rcases h with h | ⟨h1, h2⟩
  · simp [resolvePass, h, pass]
  · exact pass_waits false true _ s (by simp [PassGoes, h1, h2])

/-- After a pass that waits the timer alone may have changed, and no text has (R95, R97, R111). -/
theorem passedOn_waits (before : List TStroke) (s : State) (h : s.trans.lookahead = [] ∨
    (s.trans.lookahead.length < 6 ∧ extendable s.dict (s.trans.lookahead.map (·.press)) = true)) :
    (passedOn before s).trans = { s.trans with
      timer :=
        if s.trans.lookahead = before then s.trans.timer
        else if s.trans.lookahead = [] ∨ s.trans.setting = 0 then none else some (s.now + s.trans.setting) } ∧
      LinesFed s (passedOn before s) := by
  have hw := resolvePass_waits s h
  have ht := passedOn_trans before s
  have hf := passedOn_fed before s
  rw [hw] at ht hf
  exact ⟨ht, hf⟩

/-! ### A tier-change notice -/

/-- The state with the notices not yet taken. -/
abbrev setNotices (n : Nat) (s : State) : State := setTrans { s.trans with notices := n } s

theorem exec_tierChangeNotice_none (s : State) (h : s.trans.notices = 0) : exec .tierChangeNotice s = .next s := by
  show Host.Outcome.next (tiersChanged s) = _
  simp [tiersChanged, h]

theorem exec_tierChangeNotice (s : State) (n : Nat) (h : s.trans.notices = n + 1) :
    exec .tierChangeNotice s = .next (passedOn s.trans.lookahead (setNotices n s)) := by
  show Host.Outcome.next (tiersChanged s) = _
  simp [tiersChanged, h, passedOn]

/-- Settles O36: the pass on the lookahead under the new contents, by the units it forms. -/
theorem tierNoticeRunsAPass : Obligations.TierNoticeRunsAPass := by
  intro s
  refine ⟨fun n hn => ⟨_, exec_tierChangeNotice s n hn, ?_⟩, exec_tierChangeNotice_none s⟩
  have hwait : (s.trans.lookahead = [] ∨
      (s.trans.lookahead.length < 6 ∧ extendable s.dict (s.trans.lookahead.map (·.press)) = true)) →
      (passedOn s.trans.lookahead (setNotices n s)).trans = { s.trans with notices := n } := fun h => by
    rw [(passedOn_waits _ (setNotices n s) h).1]
    simp
  refine ⟨by simp, by simp, passedOn_upstream _ (setNotices n s), fun h => hwait (.inl h),
    fun _ h1 h2 => hwait (.inr ⟨h1, h2⟩), fun b bs d hb hgo hd => ?_, fun b hb hx hr => ?_, fun us rest h => ?_⟩
  · have hne : s.trans.lookahead ≠ [] := by simp [hb]
    obtain ⟨hl, ht, hc⟩ := passedOn_whole s.trans.lookahead (setNotices n s) d hne hne hgo hd
    exact ⟨hl, ht, hc, fun m l hw => passedOn_wholeWord _ (setNotices n s) b bs d hb hgo hd m l hw⟩
  · have hf : PassForms s.dict false s.trans.lookahead [untranslated b] [] := hb ▸ passForms_single (.inr (.inr hx)) hr
    obtain ⟨⟨hl, hc, -⟩, ht, -⟩ := passedOn_outcome (s := setNotices n s) s.trans.lookahead hf
    exact ⟨hl, ht.trans (by simp [hb]), hc⟩
  · exact passedOn_outcome (s := setNotices n s) _ h

/-! ### The resolution timer's expiry -/

/-- What the expiry of the resolution timer makes of the part: a flush pass, the timer stopped, and the feeds' choices (R98, R163). -/
def flushedOn (s : State) : State := chooseAll (stopTimer (flushPass s))

theorem exec_resolutionTimerExpiry_due (s : State) (e : Nat) (h : s.trans.timer = some e) (hd : e ≤ s.now) :
    exec .resolutionTimerExpiry s = .next (flushedOn s) := congrArg _ (if_pos (by simp [Timer.due, h, hd]))

theorem exec_resolutionTimerExpiry_early (s : State) (e : Nat) (h : s.trans.timer = some e) (hd : s.now < e) :
    exec .resolutionTimerExpiry s = .next s := congrArg _ (if_neg (by simp [Timer.due, h, hd]))

theorem flushedOn_trans (s : State) : (flushedOn s).trans = { (flushPass s).trans with timer := none } := by
  simp [flushedOn, stopTimer]

theorem flushedOn_fed (s : State) : LinesFed (flushPass s) (flushedOn s) := (LinesFed.of_eq (by simp)).trans (chooseAll_fed (stopTimer (flushPass s)))

section Flushed
variable {s : State} {us : List Formed} {rest : List TStroke}

theorem flushPass_places (h : PassForms s.dict true s.trans.lookahead us rest) :
    Places true us s (flushPass s) ∧ (flushPass s).trans.lookahead = rest := pass_places true h _ s rfl rfl (Nat.le_refl _)

theorem flushedOn_outcome (h : PassForms s.dict true s.trans.lookahead us rest) :
    PassLeft us rest s.trans.carry s.trans.history (flushedOn s) ∧ UnitsPlaced us s (flushedOn s) := by
  obtain ⟨hp, hl⟩ := flushPass_places h
  have ht := flushedOn_trans s
  exact ⟨(hp.passLeft hl).of_trans (by rw [ht]) (by rw [ht]) (by rw [ht]), hp.unitsPlaced.fed (flushedOn_fed s) (by rw [ht])⟩

end Flushed

/-! ### The written form of a stroke -/

/-- The character of a key (R100). -/
def keyChar (i : Nat) : Byte :=
  BitVec.ofNat 8 ((['#', 'S', 'T', 'K', 'P', 'W', 'H', 'R', 'A', 'O', '*', 'E', 'U', 'F', 'R', 'P', 'B', 'L', 'G', 'T', 'S', 'D',
    'Z'].getD i ' ').toNat)

/-- The characters of the keys of a set among `n` keys from `i` on. -/
def charsIn (p : KeySet) (i n : Nat) : List Byte := (List.range' i n).flatMap (fun j => if p.getLsbD j = true then [keyChar j] else [])

theorem charsFrom_keyChar (p : KeySet) (i n : Nat) : charsFrom p i ((List.range' i n).map keyChar) = charsIn p i n := by
  induction n generalizing i with
  | zero => rfl
  | succ n ih =>
    simp only [List.range'_succ, List.map_cons, charsFrom, charsIn, List.flatMap_cons] at ih ⊢
    rw [ih]
    split <;> rfl

theorem writtenForm_eq (p : KeySet) : writtenForm p = charsIn p 0 8 ++ charsIn p 8 5 ++
    (if charsIn p 8 5 = [] ∧ charsIn p 13 10 ≠ [] then [0x2D#8] else []) ++ charsIn p 13 10 := by
  have hl : keyChars.take 8 = (List.range' 0 8).map keyChar := by decide
  have hm : (keyChars.drop 8).take 5 = (List.range' 8 5).map keyChar := by decide
  have hr : keyChars.drop 13 = (List.range' 13 10).map keyChar := by decide
  simp [writtenForm, hl, hm, hr, charsFrom_keyChar]

/-- What a key adds to the written form: its character, behind a hyphen where it is the first right-bank key and no key of the indexes 8 to 12 is
pressed (R100). -/
def keyText (p : KeySet) (i : Nat) : List Byte :=
  if p.getLsbD i = true then
    (if 13 ≤ i ∧ ∀ j ∈ List.range i, 8 ≤ j → p.getLsbD j = false then [0x2D#8] else []) ++ [keyChar i]
  else []

theorem charsIn_eq_nil_iff (p : KeySet) (i n : Nat) : charsIn p i n = [] ↔ ∀ j, i ≤ j → j < i + n → p.getLsbD j = false := by
  simp [charsIn, List.flatMap_eq_nil_iff]

/-- No hyphen stands before a key of the left bank or the middle. -/
theorem keyText_left (p : KeySet) (i n : Nat) (h : i + n ≤ 13) : (List.range' i n).flatMap (keyText p) = charsIn p i n := by
  refine congrArg List.flatten (List.map_congr_left fun j hj => ?_)
  obtain ⟨-, hji⟩ := List.mem_range'_1.1 hj
  have hlt : ¬ 13 ≤ j := by omega
  simp [keyText, hlt]

/-- Among the right bank a hyphen stands before the first key alone, and where no key of the middle is pressed. -/
theorem keyText_right (p : KeySet) (i n : Nat) (h : 13 ≤ i) : (List.range' i n).flatMap (keyText p) =
    (if (∀ j ∈ List.range i, 8 ≤ j → p.getLsbD j = false) ∧ charsIn p i n ≠ [] then [0x2D#8] else []) ++ charsIn p i n := by
  induction n generalizing i with
  | zero => simp [charsIn]
  | succ n ih =>
    have hc : charsIn p i (n + 1) = (if p.getLsbD i = true then [keyChar i] else []) ++ charsIn p (i + 1) n := rfl
    rw [List.range'_succ, List.flatMap_cons, ih (i + 1) (by omega), hc]
    have hnext : (∀ j ∈ List.range (i + 1), 8 ≤ j → p.getLsbD j = false) ↔
        (∀ j ∈ List.range i, 8 ≤ j → p.getLsbD j = false) ∧ p.getLsbD i = false := by
      simp only [List.range_succ, List.mem_append, List.mem_singleton]
      exact ⟨fun k => ⟨fun j hj => k j (.inl hj), k i (.inr rfl) (by omega)⟩, fun k j hj h8 => hj.elim (fun hj => k.1 j hj h8) (fun e => e ▸ k.2)⟩
    by_cases hb : p.getLsbD i = true
    · simp only [hnext, keyText, hb, h, true_and, if_true]
      simp
    · simp only [hnext, keyText, hb, Bool.false_eq_true, if_false]
      simp

/-- The written form, key by key in index order (R100). -/
theorem writtenForm_keys (p : KeySet) : writtenForm p = (List.range 23).flatMap (keyText p) := by
  have hsplit : List.range 23 = List.range' 0 8 ++ List.range' 8 5 ++ List.range' 13 10 := by decide
  have hmid : charsIn p 8 5 = [] ↔ ∀ j ∈ List.range 13, 8 ≤ j → p.getLsbD j = false := by
    rw [charsIn_eq_nil_iff]
    exact ⟨fun k j hj h8 => k j h8 (List.mem_range.1 hj), fun k j h8 hj => k j (List.mem_range.2 hj) h8⟩
  rw [hsplit, List.flatMap_append, List.flatMap_append, keyText_left p 0 8 (by omega), keyText_left p 8 5 (by omega),
    keyText_right p 13 10 (by omega), writtenForm_eq]
  simp only [hmid, List.append_assoc]

/-- Settles O35: the flush pass by the units it forms, and the written form key by key. -/
theorem resolutionExpiryFlushesTheLookahead : Obligations.ResolutionExpiryFlushesTheLookahead := by
  intro s e ht
  refine ⟨fun hd => ⟨_, exec_resolutionTimerExpiry_due s e ht hd, ?_⟩, exec_resolutionTimerExpiry_early s e ht, writtenForm_keys⟩
  have hT := flushedOn_trans s
  refine ⟨by rw [hT]; exact flushPass_empties s, by rw [hT], by simp [hT, flushPass], by simp [hT, flushPass], fun h => ?_,
    fun b bs d hb hd => ?_, fun b hb hr => ?_, fun us h => flushedOn_outcome h, by simp [UpstreamKept, OutsideKept, flushedOn]⟩
  · have hw : flushPass s = s := by simp [flushPass, h, pass]
    have hf := flushedOn_fed s
    rw [hw] at hT hf
    exact ⟨hT, hf.textKept⟩
  · have hf := passForms_whole (flush := true) (by simp [hb]) (.inl rfl) hd
    refine ⟨(flushedOn_outcome hf).1.2.1, fun n l hw => ?_⟩
    have h := ((flushPass_places hf).1.wordJoined hw).fed (flushedOn_fed s)
    rwa [hb, unitEnds_entryUnit] at h
  · exact (flushedOn_outcome (hb ▸ passForms_single (flush := true) (.inl rfl) hr)).1.2.1

end Sys2Proof.Machine

/-! A stroke handed over (O33, O34): what the Translator takes it for, and a word of a single stroke laid by the Line Builder. -/

namespace Sys2Proof.Machine

/-! ### The stroke taken -/

/-- The state with the strokes that remain handed over (R94). -/
abbrev setHanded (ks : List Stroke) (s : State) : State := setTrans { s.trans with handed := ks } s

theorem exec_strokeHandover (s : State) (k : Stroke) (ks : List Stroke) (h : s.trans.handed = k :: ks) :
    exec .strokeHandover s = .next (chooseAll (takeStroke k (setHanded ks s))) := by
  show Host.Outcome.next (takeNext s) = _
  simp [takeNext, h, setHanded]

section Kinds
variable {k : Stroke} {s : State}

theorem isCorrection_of_star (h : k.press = BitVec.twoPow 23 10) : k.isCorrection = true := by
  simp [Stroke.isCorrection, starSet, h]

theorem isCorrection_of_ordinary (h : k.press ≠ BitVec.twoPow 23 10) : k.isCorrection = false := by
  simp [Stroke.isCorrection, starSet, h]

theorem takeStroke_ordinary (hl : s.session.st = .live) (h : k.press ≠ BitVec.twoPow 23 10) :
    takeStroke k s = takeOrdinary k s := by
  simp [takeStroke, hl, isCorrection_of_ordinary h]

theorem takeStroke_correction (hl : s.session.st = .live) (h : k.press = BitVec.twoPow 23 10) : takeStroke k s = takeCorrection s := by
  simp [takeStroke, hl, isCorrection_of_star h]

theorem takeStroke_late (hl : s.session.st ≠ .live) (h : k.press ≠ BitVec.twoPow 23 10) : takeStroke k s = takeLateStroke k s := by
  simp [takeStroke, hl, isCorrection_of_ordinary h]

theorem takeStroke_lateCorrection (hl : s.session.st ≠ .live) (h : k.press = BitVec.twoPow 23 10) :
    takeStroke k s = post .reporter .lateCorrection s := by
  simp [takeStroke, hl, isCorrection_of_star h]

end Kinds

/-- An ordinary stroke of LIVE joins the lookahead, and a pass runs on it (R94, R95). -/
theorem takeOrdinary_passedOn (k : Stroke) (s : State) : chooseAll (takeOrdinary k s) =
    passedOn s.trans.lookahead (setLookahead (s.trans.lookahead ++ [k.held3]) s) := rfl

/-! ### A single stroke that resolves -/

theorem unitClass_single (b : TStroke) : unitClass [b] = b.cls := by
  obtain ⟨q, p, c⟩ := b
  cases c <;> rfl

/-- With nothing waiting, a stroke that resolves and is not extendable is placed alone (R95, R96). -/
theorem takeOrdinary_alone (k : Stroke) (s : State) (e : DictEntry) (hl : s.trans.lookahead = [])
    (hx : extendable s.dict [k.press] = false) (he : (resolve s.dict [k.press]).entry = some e) :
    takeOrdinary k s = placeUnit true (entryUnit [k.held3] e) s := by
  have hback : ∀ ks, setLookahead [] (setLookahead ks s) = s := fun ks => by
    simp only [setTrans]
    rw [← hl]
  have hpass : resolvePass (setLookahead [k.held3] s) = placeUnit true (entryUnit [k.held3] e) s := by
    have h := pass_whole false true 0 (setLookahead [k.held3] s) (entryUnit [k.held3] e)
      (by simp) (.inr (.inr hx)) (formFront_whole s.dict [k.held3] e (by simp) he)
    exact h.trans (congrArg _ (hback _))
  have htimer : setTimer [] (placeUnit true (entryUnit [k.held3] e) s) = placeUnit true (entryUnit [k.held3] e) s :=
    if_pos (by rw [placeUnit_lookahead, hl])
  simp only [takeOrdinary, hl, List.nil_append, hpass, htimer]

/-- The state after a stroke of LIVE that leaves as one word: its unit placed, and the feeds' choices. -/
def wordTaken (e : DictEntry) (k : Stroke) (s : State) : State := chooseAll (placeUnit true (entryUnit [k.held3] e) s)

theorem exec_word (s : State) (k : Stroke) (ks : List Stroke) (e : DictEntry) (hs : s.trans.handed = k :: ks)
    (hlive : s.session.st = .live) (hk : k.press ≠ BitVec.twoPow 23 10) (hl : s.trans.lookahead = [])
    (hx : extendable s.dict [k.press] = false) (he : (resolve s.dict [k.press]).entry = some e) :
    exec .strokeHandover s = .next (wordTaken e k (setHanded ks s)) := by
  rw [exec_strokeHandover s k ks hs, takeStroke_ordinary (s := setHanded ks s) hlive hk,
    takeOrdinary_alone k (setHanded ks s) e hl hx he]
  rfl

section Taken
variable {e : DictEntry} {k : Stroke} {ks : List Stroke} {s : State}

theorem wordTaken_fed : LinesFed (placeUnit true (entryUnit [k.held3] e) s) (wordTaken e k s) := chooseAll_fed _

theorem wordTaken_upstream : UpstreamKept s (wordTaken e k (setHanded ks s)) := by
  simp [UpstreamKept, OutsideKept, wordTaken, setHanded]

/-- The unit of the stroke has entered the history (R102, R104, R105, R109). -/
theorem wordTaken_entered (hs : s.trans.handed = k :: ks) (hw : OneWord e s) {s' : State} {p : Placement} {ns : List Nat}
    (hp : placeFormed (entryUnit [k.held3] e) (setHanded ks s) = { s := s', placement := some p, settled := ns }) :
    UnitEntered e k p ns s (wordTaken e k (setHanded ks s)) := by
  obtain ⟨hne, -, -, -, hc⟩ := hw
  have hh := placeUnit_history (entryUnit [k.held3] e) (setHanded ks s) s' p ns (by rw [setHanded, setTrans_trans, hc]) hp
  have ht : (wordTaken e k (setHanded ks s)).trans = { (setHanded ks s).trans with
      carry := carryAfter s.trans.carry e.text e.fmt
      history := (placeUnit true (entryUnit [k.held3] e) (setHanded ks s)).trans.history } := by
    simp [wordTaken, placeUnit_trans, entryUnit, setHanded]
  rw [UnitEntered, ht, hh, hs, carryAfter, if_neg hne]
  simp [setHanded, Formed.unit, entryUnit, unitClass_single, Stroke.held3]

end Taken

/-- A word that fits behind the open line's text joins it (R123, R127). -/
theorem wordTaken_joins (s : State) (k : Stroke) (ks : List Stroke) (e : DictEntry) (hs : s.trans.handed = k :: ks) (n : Nat) (l : Line)
    (hw : WordFits e k.cls n l s) :
    WordJoined e n l k.seq k.seq (wordTaken e k (setHanded ks s)) ∧
      (wordTaken e k (setHanded ks s)).lines =
        { s.lines with records := (wordTaken e k (setHanded ks s)).lines.records } ∧
      (∀ y ∈ (wordTaken e k (setHanded ks s)).lines.records, ∃ z ∈ s.lines.records, y.serial = z.serial) ∧
      UnitEntered e k (joinedAt (entryUnit [k.held3] e) n l) [] s (wordTaken e k (setHanded ks s)) := by
  have hw' : WordFits (entryUnit [k.held3] e).asEntry (unitClass (entryUnit [k.held3] e).strokes) n l (setHanded ks s) := by
    rw [show unitClass (entryUnit [k.held3] e).strokes = k.cls from unitClass_single _]
    exact hw
  have hf := wordTaken_fed (e := e) (k := k) (s := setHanded ks s)
  have hj := placeUnit_joins (keep := true) hw'
  refine ⟨(placeUnit_wordJoined hw').fed hf, ?_, fun y hy => ?_, wordTaken_entered hs hw.1 (placeFormed_joins _ _ n l hw')⟩
  · rw [hf.2, hj]
    rfl
  · obtain ⟨x, hx, hb⟩ := hf.1.from_old y hy
    rw [hj] at hx
    obtain ⟨z, hz, rfl⟩ := List.mem_map.1 hx
    refine ⟨z, hz, (Line.body_inj hb).1.trans ?_⟩
    split <;> rfl

end Sys2Proof.Machine

/-! A word that opens a line (O34): on a line with no room, and in a store with no record free (R123, R128, R129, R135, R171). -/

namespace Sys2Proof.Machine

/-! ### The open line closed -/

/-- The record of a serial after an update of every record that keeps the serials. -/
theorem findLine_map (g : Line → Line) (hg : ∀ l, (g l).serial = l.serial) (rs : List Line) (m : Nat) :
    findLine (rs.map g) m = (findLine rs m).map g := by
  unfold findLine
  rw [List.find?_map]
  congr 2
  funext l
  simp [hg]

/-- A record after line `n` has closed and the lines named have settled (R128, R129). -/
def Line.closedAndSettled (n : Nat) (out : List Nat) (l : Line) : Line :=
  (fun x : Line => if x.serial ∈ out then x.settled else x) (if l.serial = n then l.close else l)

theorem closedAndSettled_serial (n : Nat) (out : List Nat) (l : Line) : (l.closedAndSettled n out).serial = l.serial := by
  unfold Line.closedAndSettled Line.close
  dsimp only
  repeat' split
  all_goals rfl

theorem closeOpen_some (s : State) (n : Nat) (h : s.lines.openLine = some n) :
    closeOpen s = settleCheck (setOpenLine none (setRecords (updateLine n Line.close s.lines.records) s)) := by
  simp [closeOpen, h]

/-- What the close of the open line and the settle check make of the records (R128, R129). -/
theorem closeOpen_records (s : State) (n : Nat) (h : s.lines.openLine = some n) :
    (closeOpen s).1.lines.records = s.lines.records.map (Line.closedAndSettled n (closeOpen s).2) := by
  rw [closeOpen_some s n h]
  simp only [settleCheck, settleLines, setRecords_lines, setOpenLine, updateLine, List.map_map]
  rfl

/-- The serials of the lines CLOSED once line `n` has closed, lowest first. -/
def closedWith (n : Nat) (s : State) : List Nat :=
  ((s.lines.records.map (fun y => if y.serial = n ∧ y.state = .opn then { y with state := .closed } else y)).filter
    (fun y => y.state = .closed)).map (·.serial)

/-- The lines that settle are the lowest CLOSED ones beyond the settle depth (R129). -/
theorem closeOpen_settled (s : State) (n : Nat) (h : s.lines.openLine = some n) :
    (closeOpen s).2 = (closedWith n s).take ((closedWith n s).length - s.lines.settle) := by
  have hrec : (setOpenLine none (setRecords (updateLine n Line.close s.lines.records) s)).lines.records =
      s.lines.records.map (fun y => if y.serial = n ∧ y.state = .opn then { y with state := .closed } else y) := by
    refine List.map_congr_left fun y _ => ?_
    simp only [Line.close, ite_and]
  rw [closeOpen_some s n h]
  simp only [settleCheck, closedSerials, hrec]
  rfl

theorem findLine_closeOpen (s : State) (n m : Nat) (h : s.lines.openLine = some n) :
    findLine (closeOpen s).1.lines.records m = (findLine s.lines.records m).map (Line.closedAndSettled n (closeOpen s).2) := by
  rw [closeOpen_records s n h, findLine_map _ (closedAndSettled_serial n _)]

/-- A line that was CLOSED, or the open line, after the close: its text stands, and it is SETTLED where it is named, else CLOSED. -/
theorem closedAndSettled_of_closed (n : Nat) (out : List Nat) (l : Line) (h : l.state = .closed ∨ (l.serial = n ∧ l.state = .opn)) :
    (l.closedAndSettled n out).text = l.text ∧ (l.closedAndSettled n out).revision = l.revision ∧
      (l.closedAndSettled n out).range = l.range ∧ (l.closedAndSettled n out).state = if l.serial ∈ out then .settled else .closed := by
  have hc : (if l.serial = n then l.close else l) = { l with state := .closed } := by
    rcases h with h | ⟨h1, h2⟩
    · rw [show l.close = l from if_neg (by simp [h]), ite_self, ← h]
    · rw [if_pos h1]
      exact if_pos h2
  rw [Line.closedAndSettled, hc]
  dsimp only
  split <;> simp [Line.settled]

/-! ### A word on a line without room -/

section Wraps
variable {u : Formed} {s : State} {n : Nat} {l : Line}

theorem placeFormed_wraps (hw : OneWord u.asEntry s) (ho : s.lines.openLine = some n) (hl : findLine s.lines.records n = some l)
    (hcls : l.cls = unitClass u.strokes) (hpos : l.text ≠ []) (hfull : s.lines.width < l.text.length + 1 + u.text.length)
    (hwid : u.text.length ≤ s.lines.width) (hmax : s.lines.counter < 4294967295) (hroom : s.lines.records.length < 4096)
    (hnew : findLine s.lines.records (s.lines.counter + 1) = none) :
    placeFormed u s = { s := withWord (placeReq u s.trans.carry) (closeOpen s).1, placement := some (opensAt .wrap u s)
                        settled := (closeOpen s).2 } ∧
      findLine (closeOpen s).1.lines.records ((closeOpen s).1.lines.counter + 1) = none := by
  obtain ⟨ht, hs, hc⟩ := placeReq_word u s hw
  have hnum := closeOpen_numbers s
  have hcnt : (closeOpen s).1.lines.counter = s.lines.counter := by rw [hnum]
  have hnew' : findLine (closeOpen s).1.lines.records ((closeOpen s).1.lines.counter + 1) = none := by
    rw [hcnt, findLine_closeOpen s n _ ho, hnew]
    rfl
  have hr : withRoom (closeOpen s).1 = (closeOpen s).1 := withRoom_of_room _ (by rwa [closeOpen_records s n ho, List.length_map])
  refine ⟨?_, hnew'⟩
  rw [placeFormed_text u s hw.1, place_wraps _ s (closeOpen s).1 l (ht ▸ hw.1) (ht ▸ hw.2.1) hs hc (by simp [openRecord, ho, hl]) hcls hpos
    (ht ▸ hfull) (ht ▸ hwid) hmax rfl (by rwa [hr]), hr, ht, hcnt]
  rfl

end Wraps

/-! ### A record reclaimed -/

/-- A feed's context once a line's reclaim has been told it (R171). -/
def Feed.reclaimed (rs : List Line) (l : Line) (f : Fin 4) (c : Feed) : Feed :=
  if c.state.enabled then
    { c with
      outOfStep := c.outOfStep || owed rs f c l
      edits := c.edits.filter (fun n => n ≠ l.serial)
      health := healthOf { c with outOfStep := c.outOfStep || owed rs f c l, edits := c.edits.filter (fun n => n ≠ l.serial) } }
  else c

theorem feed_takeReclaim (rs : List Line) (l : Line) (s : State) (f g : Fin 4) :
    feed (takeReclaim rs l s f) g = if f = g then (feed s g).reclaimed rs l g else feed s g := by
  unfold takeReclaim Feed.reclaimed
  by_cases hfg : f = g
  · subst hfg
    by_cases he : (feed s f).state.enabled = true <;> simp [he, feed_refreshHealth]
  · dsimp only
    split <;> simp [feed_refreshHealth, feed_setFeedCtx, hfg]

theorem feed_reclaimFeeds (rs : List Line) (l : Line) (s : State) (g : Fin 4) :
    feed (reclaimFeeds rs l s) g = (feed s g).reclaimed rs l g := by
  unfold reclaimFeeds allFeeds
  match g with
  | 0 => simp [feed_takeReclaim]
  | 1 => simp [feed_takeReclaim]
  | 2 => simp [feed_takeReclaim]
  | 3 => simp [feed_takeReclaim]

section Reclaim
variable {s : State} {r : Line}

theorem reclaim_some (h : s.lines.records.find? (fun l => !l.unsettled) = some r) :
    reclaim s = liftLowWaters (detachMarks r.serial (reclaimFeeds s.lines.records r
      (setRecords (s.lines.records.filter (fun x => x.serial ≠ r.serial)) s))) := by
  simp [reclaim, h]

/-- The record reclaimed leaves the store, and nothing else of it changes (R135). -/
theorem reclaim_lines (h : s.lines.records.find? (fun l => !l.unsettled) = some r) :
    (reclaim s).lines = { s.lines with records := s.lines.records.filter (fun x => x.serial ≠ r.serial) } := by
  simp [reclaim_some h, detachMarks]

/-- The marks of the line reclaimed become DETACHED (R194). -/
theorem reclaim_marks (h : s.lines.records.find? (fun l => !l.unsettled) = some r) :
    (reclaim s).marks.records = s.marks.records.map (fun m =>
      if m.serial = r.serial ∧ m.detached = false then { m with detached := true } else m) := by
  simp [reclaim_some h, detachMarks, becomesDetached]

/-- An enabled feed has lost the serial from its edit queue, and is out of step where it owed the line a frame (R171). -/
theorem reclaim_feed (h : s.lines.records.find? (fun l => !l.unsettled) = some r) (f : Fin 4)
    (he : (feed s f).state.enabled = true) :
    (feed (reclaim s) f).outOfStep = ((feed s f).outOfStep || owed s.lines.records f (feed s f) r) ∧
      (feed (reclaim s) f).edits = (feed s f).edits.filter (fun n => n ≠ r.serial) := by
  have hd : ∀ x, feed (detachMarks r.serial x) f = feed x f := fun x => by simp [feed]
  have hs : feed (setRecords (s.lines.records.filter (fun x => x.serial ≠ r.serial)) s) f = feed s f := rfl
  rw [reclaim_some h, feed_liftLowWaters, hd, feed_reclaimFeeds, hs, Feed.reclaimed, if_pos he]
  exact ⟨rfl, rfl⟩

end Reclaim

/-! ### What a feed's choice leaves of its edit queue -/

/-- No edit queue holds a serial it did not hold. -/
def EditsWithin (s t : State) : Prop := ∀ g, ∀ n ∈ (feed t g).edits, n ∈ (feed s g).edits

theorem EditsWithin.of_eq {s t : State} (h : t.feeds = s.feeds) : EditsWithin s t := fun g n hn => by
  simpa only [feed, h] using hn

theorem EditsWithin.trans {s t u : State} (h1 : EditsWithin s t) (h2 : EditsWithin t u) : EditsWithin s u :=
  fun g n hn => h1 g n (h2 g n hn)

/-- The same, told from the end. -/
theorem EditsWithin.after {s t u : State} (h2 : EditsWithin t u) (h1 : EditsWithin s t) : EditsWithin s u := h1.trans h2

theorem setFeedCtx_edits (f : Fin 4) (c : Feed) (s : State) (h : ∀ n ∈ c.edits, n ∈ (feed s f).edits) :
    EditsWithin s (setFeedCtx f c s) := by
  intro g n hn
  rw [feed_setFeedCtx] at hn
  split at hn
  · next e => exact e ▸ h n hn
  · exact hn

theorem refreshHealth_edits (f : Fin 4) (s : State) : EditsWithin s (refreshHealth f s) := by
  intro g n hn
  rw [feed_refreshHealth] at hn
  split at hn
  · next e => exact e ▸ hn
  · exact hn

theorem removeDone_edits (s : State) : EditsWithin s (removeDone s) := by
  intro g n hn
  rw [removeDone, feed_liftLowWaters] at hn
  exact hn

theorem startFrame_edits (f : Fin 4) (d : Due) (s : State) : EditsWithin s (startFrame f d s) := by
  unfold startFrame
  cases d with
  | update l q =>
    refine .after (t := setFeedCtx f _ s) (.of_eq rfl) (setFeedCtx_edits f _ s fun n hn => ?_)
    dsimp only at hn
    split at hn
    · exact List.mem_of_mem_drop hn
    · exact hn
  | line l => exact .after (refreshHealth_edits f _) (.after (t := setFeedCtx f _ s) (.of_eq rfl) (setFeedCtx_edits f _ s fun _ h => h))
  | withdraw l => exact .after (removeDone_edits _) (.after (t := setFeedCtx f _ s) (.of_eq rfl) (setFeedCtx_edits f _ s fun _ h => h))
  | withheld l => exact .after (refreshHealth_edits f _) (setFeedCtx_edits f _ s fun _ h => h)
  | idle => exact setFeedCtx_edits f _ s fun _ h => h
  | test =>
    dsimp only
    split
    · exact .of_eq rfl
    · exact setFeedCtx_edits f _ s fun _ h => h

theorem actOn_edits (f : Fin 4) (d : Due) (s : State) : EditsWithin s (actOn f d s) := by
  unfold actOn
  split
  · exact startFrame_edits f d s
  · exact setFeedCtx_edits f _ s fun _ h => h

theorem mem_of_mem_serveEdits (a : Audience) (rs : List Line) (q : List Nat) (n : Nat) (h : n ∈ (serveEdits a rs q).1) : n ∈ q := by
  induction q with
  | nil => exact h
  | cons m ms ih =>
    unfold serveEdits at h
    repeat' split at h
    · exact h
    · exact List.mem_cons_of_mem m (ih h)
    · exact List.mem_cons_of_mem m (ih h)

theorem raiseLow_edits (f : Fin 4) (s : State) : EditsWithin s (raiseLow f s) := setFeedCtx_edits f _ s fun _ h => h

theorem chooseLive_edits (f : Fin 4) (s : State) : EditsWithin s (chooseLive f s) := by
  have hserved : EditsWithin s (setFeedCtx f { feed s f with edits := (liveChoice s f).1, announced := (liveChoice s f).2.1 } s) := by
    refine setFeedCtx_edits f _ s fun n hn => ?_
    dsimp only [liveChoice] at hn
    split at hn <;> exact mem_of_mem_serveEdits _ _ _ n hn
  unfold chooseLive
  dsimp only
  split
  · exact .after (raiseLow_edits f _) (.after (actOn_edits f _ _) hserved)
  · exact .after (raiseLow_edits f _) hserved

theorem choose_edits (f : Fin 4) (s : State) : EditsWithin s (choose f s) := by
  have hstay : EditsWithin s s := .of_eq rfl
  unfold choose
  dsimp only
  repeat' split
  · exact hstay
  · exact chooseLive_edits f s
  · exact actOn_edits f .idle s
  · exact hstay
  · exact actOn_edits f .test s
  · exact hstay
  · exact hstay
  · exact hstay

theorem chooseAll_edits (s : State) : EditsWithin s (chooseAll s) :=
  (((choose_edits 0 s).trans (choose_edits 1 _)).trans (choose_edits 2 _)).trans (choose_edits 3 _)

/-! ### The word of a stroke that opens a line -/

section Opens
variable {e : DictEntry} {k : Stroke} {ks : List Stroke} {s x : State} {p : Placement} {ns : List Nat}

/-- The word of a stroke stands alone in the line opened for it, on the numbers as they stood (R125, R126, R127). -/
theorem wordTaken_opened (hw : OneWord e s)
    (hp : placeFormed (entryUnit [k.held3] e) (setHanded ks s) =
      { s := withWord (placeReq (entryUnit [k.held3] e) s.trans.carry) x, placement := some p, settled := ns })
    (hc : x.lines.counter = s.lines.counter) (hl : x.lines.pageLen = s.lines.pageLen) (hnp : x.lines.nextPage = s.lines.nextPage)
    (hnl : x.lines.nextLine = s.lines.nextLine) (hnew : findLine x.lines.records (x.lines.counter + 1) = none) :
    WordOpened e k.cls k.seq k.seq s (wordTaken e k (setHanded ks s)) := by
  have h := withWord_opened (placeReq (entryUnit [k.held3] e) s.trans.carry) e s x (placeUnit true (entryUnit [k.held3] e) (setHanded ks s))
    (congrArg (·.s.lines) hp) (placeReq_word (entryUnit [k.held3] e) s hw).1 hc hl hnp hnl hnew
  rw [show (placeReq (entryUnit [k.held3] e) s.trans.carry).cls = k.cls from unitClass_single k.held3] at h
  exact h.fed wordTaken_fed

end Opens

/-- With no line open, a record free or reclaimed, the word stands alone in a line opened FORCED (R123, R125). -/
theorem wordTaken_forces (s : State) (k : Stroke) (ks : List Stroke) (e : DictEntry) (hs : s.trans.handed = k :: ks) (hw : OneWord e s)
    (ho : s.lines.openLine = none) (hwid : e.text.length ≤ s.lines.width) (hmax : s.lines.counter < 4294967295)
    (hnum : (withRoom (setHanded ks s)).lines = { s.lines with records := (withRoom (setHanded ks s)).lines.records })
    (hnew : findLine (withRoom (setHanded ks s)).lines.records (s.lines.counter + 1) = none) :
    placeFormed (entryUnit [k.held3] e) (setHanded ks s) =
      { s := withWord (placeReq (entryUnit [k.held3] e) s.trans.carry) (withRoom (setHanded ks s))
        placement := some (opensAt .forced (entryUnit [k.held3] e) s), settled := [] } ∧
    WordOpened e k.cls k.seq k.seq s (wordTaken e k (setHanded ks s)) ∧
      UnitEntered e k (opensAt .forced (entryUnit [k.held3] e) s) [] s (wordTaken e k (setHanded ks s)) := by
  have hcnt : (withRoom (setHanded ks s)).lines.counter = s.lines.counter := by rw [hnum]
  have hat : opensAt .forced (entryUnit [k.held3] e) (withRoom (setHanded ks s)) = opensAt .forced (entryUnit [k.held3] e) s := by
    rw [opensAt, hcnt]
    rfl
  have ⟨hne, hsp, hnl, _, hcarry⟩ := hw
  have hp := placeFormed_forces (entryUnit [k.held3] e) (setHanded ks s) hne hsp hnl (by rw [setTrans_trans, hcarry]) ho
    hwid hmax (by rwa [hcnt])
  rw [hat] at hp
  exact ⟨hp, wordTaken_opened hw hp hcnt (by rw [hnum]) (by rw [hnum]) (by rw [hnum]) (by rwa [hcnt]), wordTaken_entered hs hw hp⟩

/-- On a line without room the word stands alone in a line opened by WRAP, and the lines CLOSED before it settle beyond the settle depth
(R123, R128, R129). -/
theorem wordTaken_wraps (s : State) (k : Stroke) (ks : List Stroke) (e : DictEntry) (hs : s.trans.handed = k :: ks) (hw : OneWord e s)
    (n : Nat) (l : Line) (ho : s.lines.openLine = some n) (hl : findLine s.lines.records n = some l) (hst : l.state = .opn)
    (hcls : l.cls = k.cls) (hpos : l.text ≠ []) (hfull : s.lines.width < l.text.length + 1 + e.text.length)
    (hwid : e.text.length ≤ s.lines.width) (hmax : s.lines.counter < 4294967295) (hroom : s.lines.records.length < 4096)
    (hnew : findLine s.lines.records (s.lines.counter + 1) = none) :
    WordOpened e k.cls k.seq k.seq s (wordTaken e k (setHanded ks s)) ∧
      (∀ m y, findLine s.lines.records m = some y → y.state = .closed ∨ m = n →
        ∃ x, findLine (wordTaken e k (setHanded ks s)).lines.records m = some x ∧ x.text = y.text ∧ x.revision = y.revision ∧
          x.range = y.range ∧
          x.state = (if m ∈ (closedWith n s).take ((closedWith n s).length - s.lines.settle) then .settled else .closed)) ∧
      UnitEntered e k (opensAt .wrap (entryUnit [k.held3] e) s) ((closedWith n s).take ((closedWith n s).length - s.lines.settle)) s
        (wordTaken e k (setHanded ks s)) := by
  have hcls' : l.cls = unitClass (entryUnit [k.held3] e).strokes := hcls.trans (unitClass_single k.held3).symm
  obtain ⟨hp, hnew'⟩ := placeFormed_wraps (u := entryUnit [k.held3] e) (s := setHanded ks s) hw ho hl hcls' hpos hfull hwid hmax hroom hnew
  have hout := closeOpen_settled (setHanded ks s) n ho
  have hnum := closeOpen_numbers (setHanded ks s)
  rw [hout] at hp
  refine ⟨wordTaken_opened hw hp (by rw [hnum]; rfl) (by rw [hnum]; rfl) (by rw [hnum]; rfl) (by rw [hnum]; rfl) hnew', fun m y hy hc => ?_,
    wordTaken_entered hs hw hp⟩
  have hm : y.serial = m := by simpa using List.find?_some hy
  have hne : m ≠ s.lines.counter + 1 := by
    rintro rfl
    rw [hnew] at hy
    cases hy
  have hclosed : y.state = .closed ∨ (y.serial = n ∧ y.state = .opn) := hc.imp_right fun e => by
    subst e
    obtain rfl : l = y := Option.some.inj (hl.symm.trans hy)
    exact ⟨hm, hst⟩
  obtain ⟨htext, hrev, hrange, hstate⟩ := closedAndSettled_of_closed n (closeOpen (setHanded ks s)).2 y hclosed
  have hfind : findLine (placeUnit true (entryUnit [k.held3] e) (setHanded ks s)).lines.records m =
      some (y.closedAndSettled n (closeOpen (setHanded ks s)).2) := by
    rw [placeUnit_lines, hp, findLine_withWord_other _ _ m (by rw [hnum]; exact hne), findLine_closeOpen (setHanded ks s) n m ho,
      show findLine (setHanded ks s).lines.records m = some y from hy]
    rfl
  obtain ⟨x, hx, hb⟩ := wordTaken_fed.1.find hfind (by rw [hstate]; split <;> simp)
  obtain ⟨-, -, -, -, bst, brev, btext, brange, -, -⟩ := Line.body_inj hb
  refine ⟨x, hx, btext.trans htext, brev.trans hrev, brange.trans hrange, bst.trans ?_⟩
  rw [hstate, hm, hout]
  rfl

/-- With no record free the lowest SETTLED or WITHDRAWN one is reclaimed, its marks and the feeds are told, and the word stands alone in a line
opened FORCED (R125, R135, R171, R194). -/
theorem wordTaken_reclaims (s : State) (k : Stroke) (ks : List Stroke) (e : DictEntry) (hs : s.trans.handed = k :: ks) (hw : OneWord e s)
    (ho : s.lines.openLine = none) (hwid : e.text.length ≤ s.lines.width) (hmax : s.lines.counter < 4294967295)
    (hfull : 4096 ≤ s.lines.records.length) (hnew : findLine s.lines.records (s.lines.counter + 1) = none) (r : Line)
    (hr : s.lines.records.find? (fun l => !l.unsettled) = some r) :
    WordOpened e k.cls k.seq k.seq s (wordTaken e k (setHanded ks s)) ∧
      findLine (wordTaken e k (setHanded ks s)).lines.records r.serial = none ∧
      (wordTaken e k (setHanded ks s)).marks.records = s.marks.records.map (fun m =>
        if m.serial = r.serial ∧ m.detached = false then { m with detached := true } else m) ∧
      (∀ f, (feed s f).state.enabled = true →
        (feed (wordTaken e k (setHanded ks s)) f).outOfStep = ((feed s f).outOfStep || owed s.lines.records f (feed s f) r) ∧
          r.serial ∉ (feed (wordTaken e k (setHanded ks s)) f).edits) ∧
      UnitEntered e k (opensAt .forced (entryUnit [k.held3] e) s) [] s (wordTaken e k (setHanded ks s)) := by
  have hroom : withRoom (setHanded ks s) = reclaim (setHanded ks s) := if_pos hfull
  have hlines : (reclaim (setHanded ks s)).lines = { s.lines with records := s.lines.records.filter (fun x => x.serial ≠ r.serial) } :=
    reclaim_lines hr
  have hgone : ∀ m, m = r.serial ∨ findLine s.lines.records m = none →
      findLine (s.lines.records.filter (fun x => x.serial ≠ r.serial)) m = none := by
    intro m hm
    simp only [findLine, List.find?_eq_none, List.mem_filter, decide_eq_true_eq] at hm ⊢
    rintro x ⟨hx, hne⟩ rfl
    exact hm.elim hne (fun h => h x hx rfl)
  obtain ⟨hp, hop, hin⟩ := wordTaken_forces s k ks e hs hw ho hwid hmax (by rw [hroom, hlines])
    (by rw [hroom, hlines]; exact hgone _ (.inr hnew))
  rw [hroom] at hp
  have hne : r.serial ≠ s.lines.counter + 1 := by
    simp only [findLine, List.find?_eq_none, decide_eq_true_eq] at hnew
    exact hnew r (List.mem_of_find?_eq_some hr)
  have hmarks : (placeUnit true (entryUnit [k.held3] e) (setHanded ks s)).marks = (reclaim (setHanded ks s)).marks :=
    congrArg (·.s.marks) hp
  have hfeeds : (placeUnit true (entryUnit [k.held3] e) (setHanded ks s)).feeds = (reclaim (setHanded ks s)).feeds :=
    congrArg (·.s.feeds) hp
  refine ⟨hop, wordTaken_fed.1.find_none ?_, ?_, fun f he => ?_, hin⟩
  · rw [placeUnit_lines, hp, findLine_withWord_other _ _ _ (by rw [hlines]; exact hne), hlines]
    exact hgone _ (.inl rfl)
  · have htaken : (wordTaken e k (setHanded ks s)).marks = (placeUnit true (entryUnit [k.held3] e) (setHanded ks s)).marks := by
      simp [wordTaken]
    rw [htaken, hmarks]
    exact reclaim_marks hr
  · have hfeed : feed (placeUnit true (entryUnit [k.held3] e) (setHanded ks s)) f = feed (reclaim (setHanded ks s)) f :=
      congrArg (fun c : FeedCtl => c.ctx.get f) hfeeds
    obtain ⟨h1, h2⟩ := reclaim_feed (s := setHanded ks s) hr f he
    rw [← hfeed] at h1 h2
    refine ⟨(((chooseAll_kept _).2 f).outOfStep).trans h1, fun hmem => ?_⟩
    have h := chooseAll_edits _ f _ hmem
    rw [h2] at h
    simp at h

/-- A record that is neither OPEN nor CLOSED is SETTLED or WITHDRAWN (R119). -/
theorem unsettled_not : (fun l : Line => !l.unsettled) = fun l => l.state = .settled || l.state = .withdrawn := by
  funext l
  unfold Line.unsettled
  cases l.state <;> rfl

/-- Settles O34: the word on the open line, in a line opened for it, behind a line closed WRAP, and in place of a record reclaimed. -/
theorem translatedWordJoinsTheOpenLine : Obligations.TranslatedWordJoinsTheOpenLine := by
  intro s k ks e hs hlive hk hl hx he hw
  have hexec := exec_word s k ks e hs hlive hk hl hx he
  refine ⟨fun n l hf => ⟨_, hexec, ?_⟩, fun ho hwid hmax hroom hnew => ⟨_, hexec, ?_⟩,
    fun n l c ho hfl hst hcls hpos hfull hwid hmax hroom hnew hc => ⟨_, hexec, ?_⟩,
    fun r ho hwid hmax hfull hnew hr => ⟨_, hexec, ?_⟩⟩
  · obtain ⟨hj, hlines, hold, hin⟩ := wordTaken_joins s k ks e hs n l hf
    exact ⟨hj, by rw [hlines], by rw [hlines], by rw [hlines], hold, hin, wordTaken_upstream⟩
  · have hr : withRoom (setHanded ks s) = setHanded ks s := withRoom_of_room _ hroom
    obtain ⟨-, hop, hin⟩ := wordTaken_forces s k ks e hs hw ho hwid hmax (by rw [hr]; rfl) (by rw [hr]; exact hnew)
    exact ⟨hop, hin, wordTaken_upstream⟩
  · subst hc
    obtain ⟨hop, hlines, hin⟩ := wordTaken_wraps s k ks e hs hw n l ho hfl hst hcls hpos hfull hwid hmax hroom hnew
    exact ⟨hop, hlines, hin, wordTaken_upstream⟩
  · obtain ⟨hop, hgone, hmarks, hfeeds, hin⟩ := wordTaken_reclaims s k ks e hs hw ho hwid hmax hfull hnew r (by rw [unsettled_not]; exact hr)
    exact ⟨hop, hgone, hmarks, hfeeds, hin, wordTaken_upstream⟩

end Sys2Proof.Machine

/-! A retraction and the end of a late stroke (O33): what leaves the lines, and every line settled (R130 to R134). -/

namespace Sys2Proof.Machine

/-! ### Lines withdrawn, cut and opened again -/

/-- The records a withdrawal works on, before any leaves the store (R133). -/
def withdrawn (q : Nat → Bool) (l : Line) : Line := if q l.serial && l.unsettled then l.withdrawn else l

/-- Every record after a withdrawal is one held before, withdrawn where it is named (R133). -/
theorem withdrawLines_from_old (q : Nat → Bool) (s : State) (x : Line) (hx : x ∈ (withdrawLines q s).lines.records) :
    ∃ y ∈ s.lines.records, x.body = (withdrawn q y).body := by
  obtain ⟨z, hz, hb⟩ := (withdrawLines_records q s).from_old x hx
  obtain ⟨y, hy, rfl⟩ := List.mem_map.1 hz
  exact ⟨y, hy, hb⟩

/-- A filter sees nothing of a change, and of a removal, of what it does not keep. -/
theorem filter_filter_map {α : Type} (keep stays : α → Bool) (g : α → α) (rs : List α) (h1 : ∀ a, keep a = true → g a = a ∧ stays a = true)
    (h2 : ∀ a, keep a = false → keep (g a) = false) : ((rs.map g).filter stays).filter keep = rs.filter keep := by
  induction rs with
  | nil => rfl
  | cons a as ih =>
    cases hk : keep a with
    | true =>
      obtain ⟨hg, hs⟩ := h1 a hk
      rw [List.map_cons, hg, List.filter_cons_of_pos hs, List.filter_cons_of_pos hk, List.filter_cons_of_pos hk, ih]
    | false =>
      have hk' := h2 a hk
      rw [List.filter_cons_of_neg (by simp [hk]), ← ih, List.map_cons, List.filter_cons]
      split
      · rw [List.filter_cons_of_neg (by simp [hk'])]
      · rfl

/-- The nearest line below a serial is not a withdrawal's to change that names no serial below it. -/
theorem below_withdrawLines (q : Nat → Bool) (n : Nat) (hq : ∀ m, q m = true → n ≤ m) (s : State) :
    below (withdrawLines q s).lines.records n = below s.lines.records n := by
  unfold withdrawLines
  split
  · rfl
  · refine congrArg List.getLast? (filter_filter_map _ _ (withdrawn q) s.lines.records (fun l hl => ?_) (fun l hl => ?_))
    · simp only [Bool.and_eq_true, decide_eq_true_eq] at hl
      have hq' : q l.serial = false := Bool.eq_false_iff.2 fun h => by have := hq _ h; omega
      exact ⟨by simp [withdrawn, hq'], by simp [withdrawalDone, hl.2]⟩
    · unfold withdrawn
      split
      · simp [Line.withdrawn]
      · exact hl

/-- A record's cut reads nothing that a feed records. -/
theorem body_cut {x l : Line} (h : x.body = l.body) (c : Nat) : (x.cut c).body = (l.cut c).body := congrArg (·.cut c) h

theorem body_reopen {x l : Line} (h : x.body = l.body) : x.reopen.body = l.reopen.body := by
  have e : ∀ y : Line, y.reopen.body = y.body.reopen := fun y => by
    have hs : y.body.state = y.state := rfl
    unfold Line.reopen
    rw [hs]
    split <;> rfl
  rw [e, e, h]

/-- A line cut holds the runs before the cut, and their stroke range (R131). -/
theorem cut_range (l : Line) (c : Nat) :
    (l.cut c).range = (l.cut c).runs.head?.bind (fun a => (l.cut c).runs.getLast?.map (fun b => (a.first, b.last))) := by
  simp only [Line.cut]
  cases (l.runs.filter (fun r => r.column < c)).head? <;> cases (l.runs.filter (fun r => r.column < c)).getLast? <;> rfl

theorem Line.state_of_body {x l : Line} (h : x.body = l.body) : x.state = l.state := congrArg (·.state) h

/-! ### A retraction into a line -/

section Inside
variable (p : Placement) (s : State)

/-- The numbers and the open line after a retraction into a line (R131, R133). -/
theorem retractInside_numbers : (retractInside p s).lines.openLine = some p.serial ∧ (retractInside p s).lines.counter = s.lines.counter ∧
    ((retractInside p s).lines.nextPage, (retractInside p s).lines.nextLine) =
      match s.lines.records.find? (fun l => decide (p.serial < l.serial) && l.unsettled) with
      | some l => (l.page, l.line)
      | none => (s.lines.nextPage, s.lines.nextLine) :=
  ⟨rfl, withdrawLines_numbers (fun n => decide (p.serial < n)) s⟩

/-- The line retracted into is cut to the characters before the unit, and OPEN (R131). -/
theorem retractInside_line (l : Line) (hl : findLine s.lines.records p.serial = some l) (hu : l.unsettled = true) :
    ∃ x, findLine (retractInside p s).lines.records p.serial = some x ∧ x.body = (l.cut p.column).body := by
  have hw : l.state ≠ .withdrawn := fun e => by simp [Line.unsettled, e] at hu
  have hq : (fun n => decide (p.serial < n)) p.serial = false := by simp
  obtain ⟨x, hx, hb⟩ := withdrawLines_find (fun n => decide (p.serial < n)) s p.serial l hq hl hw
  have hxs : x.serial = p.serial := by simpa using List.find?_some hx
  have hxu : x.unsettled = true := by simpa [Line.unsettled, Line.state_of_body hb] using hu
  refine ⟨x.cut p.column, ?_, body_cut hb p.column⟩
  have h := findLine_updateLine p.serial p.serial (fun l => if l.unsettled then l.cut p.column else l)
    (fun y => by split <;> rfl) (withdrawLines (fun n => decide (p.serial < n)) s).lines.records
  rw [hx, Option.map_some, if_pos hxs, if_pos hxu] at h
  exact h

/-- Another line stands as it stood, or is withdrawn where it lies above (R131, R133). -/
theorem retractInside_others (x : Line) (hx : x ∈ (retractInside p s).lines.records) (hne : x.serial ≠ p.serial) :
    ∃ y ∈ s.lines.records, x.body = (withdrawn (fun n => decide (p.serial < n)) y).body := by
  obtain ⟨z, hz, rfl⟩ := List.mem_map.1 hx
  have hzs : z.serial ≠ p.serial := fun e => hne (by rw [if_pos e]; dsimp only; split <;> exact e)
  rw [if_neg hzs]
  exact withdrawLines_from_old _ s z hz

end Inside

/-! ### A retraction of a whole line -/

section Whole
variable (p : Placement) (s : State)

/-- The state with the lines from the placement's on withdrawn, and none open (R132). -/
def wholeWithdrawn : State := setOpenLine none (withdrawLines (fun n => decide (p.serial ≤ n)) s)

theorem below_wholeWithdrawn :
    below (setOpenLine none (withdrawLines (fun n => decide (p.serial ≤ n)) s)).lines.records p.serial = below s.lines.records p.serial :=
  below_withdrawLines _ p.serial (fun _ h => of_decide_eq_true h) s

/-- No line opens again where the unit's line was not opened by WRAP, or no CLOSED line lies below it (R132). -/
theorem retractWhole_stays (h : p.opening ≠ .wrap ∨ ∀ l, below s.lines.records p.serial = some l → l.state ≠ .closed) :
    retractWhole p s = wholeWithdrawn p s := by
  unfold retractWhole
  dsimp only
  split
  · next l ho hb =>
    rw [below_wholeWithdrawn] at hb
    exact if_neg (h.resolve_left (not_not_intro ho) l hb)
  · rfl

/-- The CLOSED line below a line opened by WRAP opens again (R132). -/
theorem retractWhole_reopens (l : Line) (ho : p.opening = .wrap) (hb : below s.lines.records p.serial = some l) (hc : l.state = .closed) :
    retractWhole p s = setOpenLine (some l.serial)
      (setRecords (updateLine l.serial Line.reopen (wholeWithdrawn p s).lines.records) (wholeWithdrawn p s)) := by
  unfold retractWhole
  dsimp only
  rw [ho, below_wholeWithdrawn, hb]
  exact if_pos hc

/-- Either no line opens again, or the CLOSED line below does. -/
theorem retractWhole_cases : retractWhole p s = wholeWithdrawn p s ∨
    ∃ n, retractWhole p s = setOpenLine (some n)
      (setRecords (updateLine n Line.reopen (wholeWithdrawn p s).lines.records) (wholeWithdrawn p s)) := by
  by_cases h : p.opening ≠ .wrap ∨ ∀ l, below s.lines.records p.serial = some l → l.state ≠ .closed
  · exact .inl (retractWhole_stays p s h)
  · push Not at h
    obtain ⟨ho, l, hb, hc⟩ := h
    exact .inr ⟨l.serial, retractWhole_reopens p s l ho hb hc⟩

theorem retractWhole_numbers : (retractWhole p s).lines.counter = s.lines.counter ∧
    ((retractWhole p s).lines.nextPage, (retractWhole p s).lines.nextLine) =
      match s.lines.records.find? (fun l => decide (p.serial ≤ l.serial) && l.unsettled) with
      | some l => (l.page, l.line)
      | none => (s.lines.nextPage, s.lines.nextLine) := by
  have h := withdrawLines_numbers (fun n => decide (p.serial ≤ n)) s
  rcases retractWhole_cases p s with e | ⟨n, e⟩
  · rw [e]
    exact h
  · rw [e]
    exact h

/-- Each record is one held before, withdrawn from the placement's line on, or opened again (R132, R133). -/
theorem retractWhole_from_old (x : Line) (hx : x ∈ (retractWhole p s).lines.records) :
    ∃ y ∈ s.lines.records, ∃ z, z.body = (withdrawn (fun n => decide (p.serial ≤ n)) y).body ∧ (x = z ∨ x = z.reopen) := by
  rcases retractWhole_cases p s with e | ⟨n, e⟩
  · rw [e] at hx
    obtain ⟨y, hy, hb⟩ := withdrawLines_from_old _ s x hx
    exact ⟨y, hy, x, hb, .inl rfl⟩
  · rw [e] at hx
    obtain ⟨z, hz, rfl⟩ := List.mem_map.1 hx
    obtain ⟨y, hy, hb⟩ := withdrawLines_from_old _ s z hz
    exact ⟨y, hy, z, hb, by split <;> simp⟩

/-- The line opened again holds its text (R132). -/
theorem retractWhole_line (l : Line) (ho : p.opening = .wrap) (hb : below s.lines.records p.serial = some l) (hc : l.state = .closed)
    (hl : findLine s.lines.records l.serial = some l) :
    ∃ x, findLine (retractWhole p s).lines.records l.serial = some x ∧ x.body = { l with state := .opn }.body := by
  have hlt : l.serial < p.serial := by
    have h := (List.mem_filter.1 (List.mem_of_getLast? hb)).2
    simp at h
    exact h.1
  have hq : (fun n => decide (p.serial ≤ n)) l.serial = false := by simpa using hlt
  obtain ⟨x, hx, hbody⟩ := withdrawLines_find (fun n => decide (p.serial ≤ n)) s l.serial l hq hl (by simp [hc])
  have hxs : x.serial = l.serial := (Line.body_inj hbody).1
  refine ⟨x.reopen, ?_, ?_⟩
  · rw [retractWhole_reopens p s l ho hb hc]
    have h := findLine_updateLine l.serial l.serial Line.reopen (fun y => by unfold Line.reopen; split <;> rfl)
      (wholeWithdrawn p s).lines.records
    rw [show findLine (wholeWithdrawn p s).lines.records l.serial = some x from hx, Option.map_some, if_pos hxs] at h
    exact h
  · rw [body_reopen hbody, Line.reopen, if_pos hc]

end Whole

/-! ### Every line settled -/

/-- No line stays CLOSED, and none is open (R130). -/
theorem settleAll_none_closed (s : State) (x : Line) (hx : x ∈ (settleAll s).1.lines.records) : x.state ≠ .closed := by
  obtain ⟨l, hl, rfl⟩ := List.mem_map.1 hx
  split
  · simp [Line.settled]
  · next h => exact fun hc => h (List.mem_map.2 ⟨l, List.mem_filter.2 ⟨hl, by simp [hc]⟩, rfl⟩)

theorem settleAll_openLine (s : State) : (settleAll s).1.lines.openLine = none := by
  show (closeOpen s).1.lines.openLine = none
  rw [closeOpen_numbers]

/-- The open line is SETTLED with its text (R128, R130). -/
theorem settleAll_line (s : State) (n : Nat) (l : Line) (ho : s.lines.openLine = some n) (hl : findLine s.lines.records n = some l)
    (hst : l.state = .opn) : ∃ x, findLine (settleAll s).1.lines.records n = some x ∧ x.text = l.text ∧ x.state = .settled := by
  have hn : l.serial = n := by simpa using List.find?_some hl
  obtain ⟨htext, -, -, hstate⟩ := closedAndSettled_of_closed n (closeOpen s).2 l (.inr ⟨hn, hst⟩)
  have hfind := findLine_closeOpen s n n ho
  rw [hl, Option.map_some] at hfind
  generalize l.closedAndSettled n (closeOpen s).2 = y at htext hstate hfind
  have hys : y.serial = n := by simpa using List.find?_some hfind
  refine ⟨if y.serial ∈ closedSerials (closeOpen s).1 then y.settled else y, ?_, ?_, ?_⟩
  · have h := findLine_map (fun l => if l.serial ∈ closedSerials (closeOpen s).1 then l.settled else l) (fun l => by split <;> rfl)
      (closeOpen s).1.lines.records n
    rw [hfind] at h
    exact h
  · split <;> exact htext
  · split
    · rfl
    · next h =>
      by_cases hc : y.state = .closed
      · exact absurd (List.mem_map.2 ⟨y, List.mem_filter.2 ⟨List.mem_of_find?_eq_some hfind, by simp [hc]⟩, rfl⟩) h
      · rw [hstate] at hc ⊢
        split
        · rfl
        · next hno => simp [hno] at hc

end Sys2Proof.Machine

/-! The Translator takes a stroke handed over (O33): an ordinary stroke, a late one and a correction. -/

namespace Sys2Proof.Machine

/-! ### What no stroke touches of the Translator -/

@[simp] theorem setTimer_trans_keeps (before : List TStroke) (s : State) :
    (setTimer before s).trans.setting = s.trans.setting ∧ (setTimer before s).trans.handed = s.trans.handed ∧
    (setTimer before s).trans.notices = s.trans.notices := by simp [setTimer_trans]

/-- The settlement notices of a flush-complete notice prune the history, and nothing else of the Translator changes (R105, R130). -/
theorem flushComplete_trans (s : State) : (flushComplete s).trans = { s.trans with
    history := (settleAll s).2.foldl (fun h n => prune n h) s.trans.history } := by
  simp [flushComplete, takeSettled]

theorem takeStroke_trans_keeps (k : Stroke) (s : State) :
    (takeStroke k s).trans.setting = s.trans.setting ∧ (takeStroke k s).trans.handed = s.trans.handed ∧
    (takeStroke k s).trans.notices = s.trans.notices := by
  unfold takeStroke takeCorrection
  repeat' split
  · simp [dropNewest]
  · unfold retractUnit
    dsimp only
    split <;> simp
  · simp
  · simp [takeOrdinary]
  · simp
  · simp [takeLateStroke, flushComplete_trans]

theorem takeStroke_upstream (k : Stroke) (s : State) : UpstreamKept s (chooseAll (takeStroke k s)) := by
  simp [UpstreamKept, OutsideKept]

/-! ### A late correction -/

/-- A correction that finds nothing to take back, or comes outside LIVE, posts LATE_CORRECTION (R113, R116). -/
theorem lateCorrection_told (s : State) : (chooseAll (post .reporter .lateCorrection s)).trans = s.trans ∧
    latchHolds .lateCorrection (chooseAll (post .reporter .lateCorrection s)).reporter.attn = true ∧
    LinesFed s (chooseAll (post .reporter .lateCorrection s)) := by
  have hp : latchHolds .lateCorrection ((post .reporter .lateCorrection s).link .reporter).attn = true := by
    simp [post, State.link, State.setLink]
  exact ⟨by simp, (chooseAll_flags _).holds .reporter .lateCorrection hp, (LinesFed.of_eq (by simp)).trans (chooseAll_fed _)⟩

/-! ### A stroke outside LIVE -/

/-- The state once a late stroke has been flushed, before the lines settle (R116). -/
def lateFlushed (k : Stroke) (s : State) : State :=
  setTimer s.trans.lookahead
    (pass true false (s.trans.lookahead ++ [k.held3]).length (setLookahead (s.trans.lookahead ++ [k.held3]) s))

theorem takeLateStroke_eq (k : Stroke) (s : State) : takeLateStroke k s = flushComplete (lateFlushed k s) := rfl

section Late
variable {k : Stroke} {s : State} {us : List Formed}

theorem lateFlushed_places (h : PassForms s.dict true (s.trans.lookahead ++ [k.held3]) us []) :
    ∃ t, Places false us (setLookahead (s.trans.lookahead ++ [k.held3]) s) t ∧ t.trans.lookahead = [] ∧
      t.trans.timer = s.trans.timer ∧ lateFlushed k s = setTimer s.trans.lookahead t := by
  obtain ⟨hp, hl⟩ := pass_places false h _ (setLookahead (s.trans.lookahead ++ [k.held3]) s) rfl rfl (Nat.le_refl _)
  exact ⟨_, hp, hl, by simp, rfl⟩

theorem chooseAll_late_trans : (chooseAll (takeLateStroke k s)).trans = (flushComplete (lateFlushed k s)).trans := by
  simp [takeLateStroke_eq]

theorem chooseAll_late_fed : LinesFed (settleAll (lateFlushed k s)).1 (chooseAll (takeLateStroke k s)) :=
  (LinesFed.of_eq (t := flushComplete (lateFlushed k s)) rfl).trans (chooseAll_fed _)

/-- A late stroke leaves no stroke waiting, its units do not enter the history, and no line is open (R116, R130). -/
theorem late_outcome (h : PassForms s.dict true (s.trans.lookahead ++ [k.held3]) us []) :
    (chooseAll (takeLateStroke k s)).trans.lookahead = [] ∧
      (chooseAll (takeLateStroke k s)).trans.carry = carryThrough s.trans.carry us ∧
      (∀ u ∈ (chooseAll (takeLateStroke k s)).trans.history, u ∈ s.trans.history) ∧
      (chooseAll (takeLateStroke k s)).lines.openLine = none := by
  obtain ⟨t, hp, hl, -, he⟩ := lateFlushed_places h
  rw [chooseAll_late_trans, flushComplete_trans, he, setTimer_trans]
  refine ⟨hl, hp.carry, fun u hu => ?_, ?_⟩
  · exact hp.history_late.mem ((foldl_prune_suffix _ _).mem hu)
  · rw [chooseAll_late_fed.2]
    exact settleAll_openLine _

/-- Words that fit the open line stand at its end, and the line is SETTLED (R116, R123, R130). -/
theorem late_words (h : PassForms s.dict true (s.trans.lookahead ++ [k.held3]) us []) (n : Nat) (l : Line) (hw : WordsFit us n l s) :
    ∃ x, findLine (chooseAll (takeLateStroke k s)).lines.records n = some x ∧ x.text = textWith us l ∧ x.state = .settled := by
  obtain ⟨t, hp, -, -, he⟩ := lateFlushed_places h
  obtain ⟨ho, y, hy, htext, hst, -⟩ := hp.lineHolds hw
  have hlines : (lateFlushed k s).lines = t.lines := by simp [he]
  obtain ⟨z, hz, hztext, hzst⟩ := settleAll_line (lateFlushed k s) n y (by rw [hlines]; exact ho) (by rw [hlines]; exact hy) hst
  obtain ⟨x, hx, hb⟩ := chooseAll_late_fed.1.find hz (by simp [hzst])
  obtain ⟨-, -, -, -, bst, -, btext, -⟩ := Line.body_inj hb
  exact ⟨x, hx, (btext.trans hztext).trans htext, bst.trans hzst⟩

/-- Where no stroke waited the timer stands as it stood (R97). -/
theorem late_timer (h : PassForms s.dict true (s.trans.lookahead ++ [k.held3]) us []) (hl : s.trans.lookahead = []) :
    (chooseAll (takeLateStroke k s)).trans.timer = s.trans.timer := by
  obtain ⟨t, -, hlt, htimer, he⟩ := lateFlushed_places h
  rw [chooseAll_late_trans, flushComplete_trans, he, setTimer_trans, hlt, hl]
  exact htimer

theorem late_none_closed (l : Line) (hl : l ∈ (chooseAll (takeLateStroke k s)).lines.records) : l.state ≠ .closed := by
  obtain ⟨y, hy, hb⟩ := chooseAll_late_fed.1.from_old l hl
  rw [Line.state_of_body hb]
  exact settleAll_none_closed _ y hy

end Late

/-! ### The newest unit taken back -/

/-- The state with the newest unit's text taken out of its lines, where it has a placement (R112). -/
def textTakenBack (u : TUnit) (s : State) : State :=
  match u.placement with
  | some p => retract p s
  | none => s

/-- The newest unit taken back: its strokes but the last wait again, and its carry before is restored (R112). -/
def handedBack (u : TUnit) (s : State) : State :=
  setTrans { s.trans with history := s.trans.history.dropLast, carry := u.before, lookahead := u.strokes.dropLast } (textTakenBack u s)

theorem textTakenBack_keeps (u : TUnit) (s : State) : (textTakenBack u s).dict = s.dict ∧ (textTakenBack u s).trans = s.trans ∧
    (textTakenBack u s).now = s.now := by
  unfold textTakenBack
  split <;> simp

theorem retractUnit_passedOn (u : TUnit) (s : State) (hl : s.trans.lookahead = []) :
    chooseAll (retractUnit u s) = passedOn [] (handedBack u s) := by
  have he : ∀ x : State, x = textTakenBack u s → setTrans { x.trans with
      history := x.trans.history.dropLast, carry := u.before, lookahead := u.strokes.dropLast ++ x.trans.lookahead } x = handedBack u s := by
    rintro x rfl
    simp only [(textTakenBack_keeps u s).2.1, hl, List.append_nil]
    rfl
  unfold retractUnit
  dsimp only
  rw [he _ (by unfold textTakenBack; rfl), hl]
  rfl

theorem handedBack_parts (u : TUnit) (s : State) : (handedBack u s).dict = s.dict ∧ (handedBack u s).now = s.now ∧
    (handedBack u s).trans =
      { s.trans with history := s.trans.history.dropLast, carry := u.before, lookahead := u.strokes.dropLast } :=
  ⟨(textTakenBack_keeps u s).1, (textTakenBack_keeps u s).2.2, rfl⟩

/-- What a pass forms of the strokes handed back (R95, R112). -/
theorem handedBack_outcome (u : TUnit) (s : State) {us : List Formed} {rest : List TStroke}
    (h : PassForms s.dict false u.strokes.dropLast us rest) :
    PassLeft us rest u.before s.trans.history.dropLast (passedOn [] (handedBack u s)) ∧
      TimerFollows [] rest s (passedOn [] (handedBack u s)) := by
  obtain ⟨hd, hnow, ht⟩ := handedBack_parts u s
  obtain ⟨h1, h2, -⟩ := passedOn_outcome (s := handedBack u s) [] (by rw [hd, ht]; exact h)
  refine ⟨h1, ?_⟩
  unfold TimerFollows at h2 ⊢
  rwa [hnow, ht] at h2

/-- Where the strokes handed back are none, or wait again, the Translator holds what the unit gave back, and the lines what was taken out of
them (R97, R112). -/
theorem handedBack_waits (u : TUnit) (s : State) (h : u.strokes.dropLast = [] ∨
    (u.strokes.dropLast.length < 6 ∧ extendable s.dict (u.strokes.dropLast.map (·.press)) = true)) :
    (passedOn [] (handedBack u s)).trans = { s.trans with
      history := s.trans.history.dropLast, carry := u.before, lookahead := u.strokes.dropLast
      timer :=
        if u.strokes.dropLast = [] then s.trans.timer
        else if s.trans.setting = 0 then none else some (s.now + s.trans.setting) } ∧
      LinesFed (textTakenBack u s) (passedOn [] (handedBack u s)) := by
  obtain ⟨hd, hnow, ht⟩ := handedBack_parts u s
  obtain ⟨h1, h2⟩ := passedOn_waits [] (handedBack u s) (by rw [hd, ht]; exact h)
  refine ⟨?_, h2⟩
  rw [h1, hnow, ht]
  by_cases hnil : u.strokes.dropLast = [] <;> simp [hnil]

/-! ### The lines of a unit taken back -/

/-- The record `x` is the line `y` withdrawn (R133). -/
def Line.GoneFrom (y x : Line) : Prop :=
  x.state = .withdrawn ∧ x.text = [] ∧ x.revision = (if y.revision < 65535 then y.revision + 1 else 65535) ∧ x.range = none ∧ x.runs = []

/-- A record after a withdrawal, field by field: withdrawn where it is named, else as it was. -/
theorem withdrawn_fields {q : Nat → Bool} {x y : Line} {c : Prop} [Decidable c] (hc : c ↔ (q y.serial && y.unsettled) = true)
    (h : x.body = (withdrawn q y).body) : x.serial = y.serial ∧ x.page = y.page ∧ x.line = y.line ∧
      if c then y.GoneFrom x else x.state = y.state ∧ x.text = y.text ∧ x.revision = y.revision := by
  unfold withdrawn at h
  by_cases hy : c
  · rw [if_pos (hc.1 hy)] at h
    obtain ⟨hs, hp, hl, -, hst, hrev, htext, hrange, -, hruns⟩ := Line.body_inj h
    rw [if_pos hy]
    exact ⟨hs, hp, hl, hst, htext, hrev, hrange, hruns⟩
  · rw [if_neg (mt hc.2 hy)] at h
    obtain ⟨hs, hp, hl, -, hst, hrev, htext, -⟩ := Line.body_inj h
    rw [if_neg hy]
    exact ⟨hs, hp, hl, hst, htext, hrev⟩

/-- The same where the record may have been opened again. -/
theorem reopened_fields {q : Nat → Bool} {x y z : Line} {c : Prop} [Decidable c] (hc : c ↔ (q y.serial && y.unsettled) = true)
    (h : z.body = (withdrawn q y).body) (hx : x.body = z.body ∨ x.body = z.reopen.body) :
    x.serial = y.serial ∧ x.page = y.page ∧ x.line = y.line ∧
      if c then y.GoneFrom x else x.text = y.text ∧ x.revision = y.revision ∧ (x.state = y.state ∨ x.state = .opn) := by
  have same : x.body = z.body → x.serial = y.serial ∧ x.page = y.page ∧ x.line = y.line ∧
      if c then y.GoneFrom x else x.text = y.text ∧ x.revision = y.revision ∧ (x.state = y.state ∨ x.state = .opn) := fun e => by
    obtain ⟨hs, hp, hl, hrest⟩ := withdrawn_fields hc (e.trans h)
    refine ⟨hs, hp, hl, ?_⟩
    split <;> rename_i hy
    · rwa [if_pos hy] at hrest
    · rw [if_neg hy] at hrest
      exact ⟨hrest.2.1, hrest.2.2, .inl hrest.1⟩
  rcases hx with e | e
  · exact same e
  · unfold Line.reopen at e
    split at e
    · next hz =>
      obtain ⟨hzs, hzp, hzl, hrest⟩ := withdrawn_fields hc h
      obtain ⟨hs, hp, hl, -, hst, hrev, htext, -⟩ := Line.body_inj e
      refine ⟨hs.trans hzs, hp.trans hzp, hl.trans hzl, ?_⟩
      split <;> rename_i hy
      · rw [if_pos hy] at hrest
        exact absurd (hz.symm.trans hrest.1) (by simp)
      · rw [if_neg hy] at hrest
        exact ⟨htext.trans hrest.2.1, hrev.trans hrest.2.2, .inr hst⟩
    · exact same e

section TakenBack
variable {u : TUnit} {s t : State} {p : Placement}

theorem textTakenBack_inside (hp : u.placement = some p) (hc : 0 < p.column) : textTakenBack u s = retractInside p s := by
  simp [textTakenBack, hp, retract, hc]

theorem textTakenBack_whole (hp : u.placement = some p) (hc : p.column = 0) : textTakenBack u s = retractWhole p s := by
  simp [textTakenBack, hp, retract, hc]

theorem textTakenBack_none (hp : u.placement = none) : textTakenBack u s = s := by
  simp [textTakenBack, hp]

theorem textTakenBack_counter (hf : LinesFed (textTakenBack u s) t) : t.lines.counter = s.lines.counter := by
  rw [hf.2]
  unfold textTakenBack retract
  split
  · next p _ =>
    split
    · exact (retractInside_numbers p s).2.1
    · exact (retractWhole_numbers p s).1
  · rfl

/-- The next number after a withdrawal, told by cases (R133). -/
theorem numbers_cases {P : Line → Bool} {a b x y : Nat}
    (h : (a, b) = match s.lines.records.find? P with | some l => (l.page, l.line) | none => (x, y)) :
    (∀ l, s.lines.records.find? P = some l → a = l.page ∧ b = l.line) ∧ (s.lines.records.find? P = none → a = x ∧ b = y) := by
  refine ⟨fun l hl => ?_, fun hn => ?_⟩
  · rw [hl] at h
    simpa using h
  · rw [hn] at h
    simpa using h

/-- A unit that stood behind other text: its line is cut and open, the lines above are withdrawn, and the next number goes back to the first of
them (R131, R133). -/
theorem takenBack_inside (hf : LinesFed (retractInside p s) t) (l : Line) (hl : findLine s.lines.records p.serial = some l)
    (hu : l.unsettled = true) :
    t.lines.openLine = some p.serial ∧
    (∃ x, findLine t.lines.records p.serial = some x ∧ x.state = .opn ∧ x.text = l.text.take p.column ∧
      x.revision = (if p.column < l.text.length then (if l.revision < 65535 then l.revision + 1 else 65535) else l.revision) ∧
      x.runs = l.runs.filter (fun r => r.column < p.column) ∧
      x.range = (x.runs.head?.bind (fun a => x.runs.getLast?.map (fun b => (a.first, b.last))))) ∧
    (∀ x ∈ t.lines.records, x.serial ≠ p.serial → ∃ y ∈ s.lines.records, x.serial = y.serial ∧ x.page = y.page ∧ x.line = y.line ∧
      (if p.serial < y.serial ∧ y.unsettled = true then y.GoneFrom x
      else x.state = y.state ∧ x.text = y.text ∧ x.revision = y.revision)) ∧
    (∀ y, s.lines.records.find? (fun y => decide (p.serial < y.serial) && y.unsettled) = some y →
      t.lines.nextPage = y.page ∧ t.lines.nextLine = y.line) ∧
    (s.lines.records.find? (fun y => decide (p.serial < y.serial) && y.unsettled) = none →
      t.lines.nextPage = s.lines.nextPage ∧ t.lines.nextLine = s.lines.nextLine) := by
  obtain ⟨hopen, -, hnum⟩ := retractInside_numbers p s
  obtain ⟨y, hy, hyb⟩ := retractInside_line p s l hl hu
  obtain ⟨x, hx, hxb⟩ := hf.1.find hy (by rw [Line.state_of_body hyb]; simp [Line.cut])
  obtain ⟨-, -, -, -, bst, brev, btext, brange, -, bruns⟩ := Line.body_inj (hxb.trans hyb)
  refine ⟨by rw [hf.2]; exact hopen, ⟨x, hx, bst, btext, brev, bruns, ?_⟩, fun x hx hne => ?_, ?_⟩
  · rw [brange, bruns]
    exact cut_range l p.column
  · obtain ⟨z, hz, hb⟩ := hf.1.from_old x hx
    obtain ⟨y, hy, hyb⟩ := retractInside_others p s z hz (by rwa [← (Line.body_inj hb).1])
    exact ⟨y, hy, withdrawn_fields (by simp) (hb.trans hyb)⟩
  · rw [hf.2]
    exact numbers_cases hnum

/-- A unit that opened its line: the lines from it on are withdrawn, the next number goes back to the first of them, and the CLOSED line below
opens again where the unit's line was opened by WRAP (R132, R133). -/
theorem takenBack_whole (hf : LinesFed (retractWhole p s) t) :
    (∀ x ∈ t.lines.records, ∃ y ∈ s.lines.records, x.serial = y.serial ∧ x.page = y.page ∧ x.line = y.line ∧
      (if p.serial ≤ y.serial ∧ y.unsettled = true then y.GoneFrom x
      else x.text = y.text ∧ x.revision = y.revision ∧ (x.state = y.state ∨ x.state = .opn))) ∧
    (∀ y, s.lines.records.find? (fun y => decide (p.serial ≤ y.serial) && y.unsettled) = some y →
      t.lines.nextPage = y.page ∧ t.lines.nextLine = y.line) ∧
    (s.lines.records.find? (fun y => decide (p.serial ≤ y.serial) && y.unsettled) = none →
      t.lines.nextPage = s.lines.nextPage ∧ t.lines.nextLine = s.lines.nextLine) ∧
    ((p.opening ≠ .wrap ∨ ∀ l, below s.lines.records p.serial = some l → l.state ≠ .closed) → t.lines.openLine = none) ∧
    (∀ l, p.opening = .wrap → below s.lines.records p.serial = some l → l.state = .closed →
      findLine s.lines.records l.serial = some l →
      t.lines.openLine = some l.serial ∧
      ∃ x, findLine t.lines.records l.serial = some x ∧ x.state = .opn ∧ x.text = l.text ∧ x.revision = l.revision) := by
  obtain ⟨hfirst, hnone⟩ := numbers_cases (retractWhole_numbers p s).2
  refine ⟨fun x hx => ?_, by rw [hf.2]; exact hfirst, by rw [hf.2]; exact hnone, fun h => ?_, fun l ho hb hc hl => ⟨?_, ?_⟩⟩
  · obtain ⟨w, hw, hxw⟩ := hf.1.from_old x hx
    obtain ⟨y, hy, z, hz, hwz⟩ := retractWhole_from_old p s w hw
    exact ⟨y, hy, reopened_fields (by simp) hz (hwz.imp (fun e => by rw [hxw, e]) (fun e => by rw [hxw, e]))⟩
  · rw [hf.2, retractWhole_stays p s h]
    rfl
  · rw [hf.2, retractWhole_reopens p s l ho hb hc]
    rfl
  · obtain ⟨y, hy, hyb⟩ := retractWhole_line p s l ho hb hc hl
    obtain ⟨x, hx, hxb⟩ := hf.1.find hy (by rw [Line.state_of_body hyb]; simp)
    obtain ⟨-, -, -, -, bst, brev, btext, -⟩ := Line.body_inj (hxb.trans hyb)
    exact ⟨x, hx, bst, btext, brev⟩

end TakenBack

/-! ### A single stroke, waiting or late -/

/-- A stroke that does not wait forms one unit: its entry's, or its untranslate (R95). -/
theorem passForms_stroke (d : Dict) (flush : Bool) (b : TStroke) (hgo : PassGoes d flush [b]) :
    ∃ u, PassForms d flush [b] [u] [] ∧
      (∀ e, (resolve d [b.press]).entry = some e → u.text = e.text ∧ u.fmt = e.fmt) ∧
      ((resolve d [b.press]).entry = none → u.text = writtenForm b.press ∧ u.fmt = Fmt.none) := by
  cases he : (resolve d [b.press]).entry with
  | some e => exact ⟨entryUnit [b] e, passForms_whole (by simp) hgo he, fun _ h => Option.some.inj h ▸ ⟨rfl, rfl⟩, by simp⟩
  | none => exact ⟨untranslated b, passForms_single hgo he, by simp, fun _ => ⟨rfl, rfl⟩⟩

section Taken
variable {k : Stroke} {s : State}

/-- A stroke of LIVE that leaves the lookahead extendable and below 6 strokes waits in it, and the timer restarts (R94, R95, R97). -/
theorem ordinary_waits (hlen : s.trans.lookahead.length < 5)
    (hx : extendable s.dict (s.trans.lookahead.map (·.press) ++ [k.press]) = true) :
    (chooseAll (takeOrdinary k s)).trans = { s.trans with
      lookahead := s.trans.lookahead ++ [k.held3]
      timer := if s.trans.setting = 0 then none else some (s.now + s.trans.setting) } := by
  have hx' : extendable s.dict ((s.trans.lookahead ++ [k.held3]).map (·.press)) = true := by rwa [List.map_append]
  rw [takeOrdinary_passedOn, (passedOn_waits _ (setLookahead (s.trans.lookahead ++ [k.held3]) s)
    (.inr ⟨by simp; omega, hx'⟩)).1]
  simp

/-- A stroke of LIVE with nothing waiting, not extendable, leaves as a unit of its own (R95, R97, R109). -/
theorem ordinary_alone (hl : s.trans.lookahead = []) (hx : extendable s.dict [k.press] = false) :
    (chooseAll (takeOrdinary k s)).trans.lookahead = [] ∧ (chooseAll (takeOrdinary k s)).trans.timer = s.trans.timer ∧
      (∀ e, (resolve s.dict [k.press]).entry = some e →
        (chooseAll (takeOrdinary k s)).trans.carry = carryAfter s.trans.carry e.text e.fmt) ∧
      ((resolve s.dict [k.press]).entry = none →
        (chooseAll (takeOrdinary k s)).trans.carry = carryAfter s.trans.carry (writtenForm k.press) Fmt.none) := by
  obtain ⟨u, hf, hsome, hnone⟩ := passForms_stroke s.dict false k.held3 (.inr (.inr hx))
  rw [takeOrdinary_passedOn, hl]
  obtain ⟨⟨h1, h2, -⟩, h3, -⟩ := passedOn_outcome (s := setLookahead [k.held3] s) [] hf
  refine ⟨h1, h3, fun e he => ?_, fun he => ?_⟩
  · rw [← (hsome e he).1, ← (hsome e he).2]
    exact h2
  · rw [← (hnone he).2, show writtenForm k.press = u.text from (hnone he).1.symm]
    exact h2

/-- A late stroke with nothing waiting leaves as a unit of its own, and every line settles (R116, R130). -/
theorem late_alone (hl : s.trans.lookahead = []) :
    (chooseAll (takeLateStroke k s)).trans.lookahead = [] ∧ (chooseAll (takeLateStroke k s)).trans.timer = s.trans.timer ∧
      (chooseAll (takeLateStroke k s)).lines.openLine = none ∧
      (∀ u ∈ (chooseAll (takeLateStroke k s)).trans.history, u ∈ s.trans.history) ∧
      (∀ l ∈ (chooseAll (takeLateStroke k s)).lines.records, l.state ≠ .closed) ∧
      (∀ e, (resolve s.dict [k.press]).entry = some e →
        (chooseAll (takeLateStroke k s)).trans.carry = carryAfter s.trans.carry e.text e.fmt) ∧
      ((resolve s.dict [k.press]).entry = none →
        (chooseAll (takeLateStroke k s)).trans.carry = carryAfter s.trans.carry (writtenForm k.press) Fmt.none) := by
  obtain ⟨u, hu, hsome, hnone⟩ := passForms_stroke s.dict true k.held3 (.inl rfl)
  have hf : PassForms s.dict true (s.trans.lookahead ++ [k.held3]) [u] [] := by rwa [hl]
  obtain ⟨h1, h2, h3, h4⟩ := late_outcome hf
  refine ⟨h1, late_timer hf hl, h4, h3, late_none_closed, fun e he => ?_, fun he => ?_⟩
  · rw [← (hsome e he).1, ← (hsome e he).2]
    exact h2
  · rw [← (hnone he).2, show writtenForm k.press = u.text from (hnone he).1.symm]
    exact h2

/-! ### A correction of LIVE -/

/-- With strokes waiting a correction takes the newest off the lookahead, and a pass runs on the others (R111). -/
theorem takeCorrection_waiting (hne : s.trans.lookahead ≠ []) : chooseAll (takeCorrection s) =
    passedOn s.trans.lookahead (setLookahead s.trans.lookahead.dropLast s) :=
  congrArg chooseAll (if_pos hne)

/-- With none waiting it retracts the newest unit (R112). -/
theorem takeCorrection_unit (hl : s.trans.lookahead = []) (u : TUnit) (hu : s.trans.history.getLast? = some u) :
    chooseAll (takeCorrection s) = passedOn [] (handedBack u s) := by
  rw [← retractUnit_passedOn u s hl]
  simp [takeCorrection, hl, hu]

theorem takeCorrection_none (hl : s.trans.lookahead = []) (hh : s.trans.history = []) :
    takeCorrection s = post .reporter .lateCorrection s := by
  simp [takeCorrection, hl, hh]

theorem dropLast_ne {α : Type} (l : List α) (h : l ≠ []) : l.dropLast ≠ l := fun e => by
  have hlen : l.dropLast.length = l.length := congrArg List.length e
  rw [List.length_dropLast] at hlen
  have hpos : 0 < l.length := List.length_pos_of_ne_nil h
  omega

/-- The lookahead once a correction has taken its newest stroke (R95, R97, R111). -/
theorem correction_waiting (hne : s.trans.lookahead ≠ []) :
    (s.trans.lookahead.dropLast = [] →
      (chooseAll (takeCorrection s)).trans = { s.trans with lookahead := [], timer := none } ∧ TextKept s (chooseAll (takeCorrection s))) ∧
    (s.trans.lookahead.dropLast ≠ [] → s.trans.lookahead.length < 7 →
      extendable s.dict (s.trans.lookahead.dropLast.map (·.press)) = true →
      (chooseAll (takeCorrection s)).trans = { s.trans with
        lookahead := s.trans.lookahead.dropLast
        timer := if s.trans.setting = 0 then none else some (s.now + s.trans.setting) } ∧ TextKept s (chooseAll (takeCorrection s))) ∧
    (∀ e, s.trans.lookahead.dropLast ≠ [] → extendable s.dict (s.trans.lookahead.dropLast.map (·.press)) = false →
      (resolve s.dict (s.trans.lookahead.dropLast.map (·.press))).entry = some e →
      (chooseAll (takeCorrection s)).trans.lookahead = [] ∧ (chooseAll (takeCorrection s)).trans.timer = none ∧
        (chooseAll (takeCorrection s)).trans.carry = carryAfter s.trans.carry e.text e.fmt) ∧
    (∀ us rest, PassForms s.dict false s.trans.lookahead.dropLast us rest →
      PassLeft us rest s.trans.carry s.trans.history (chooseAll (takeCorrection s)) ∧
        TimerFollows s.trans.lookahead rest s (chooseAll (takeCorrection s)) ∧ UnitsPlaced us s (chooseAll (takeCorrection s))) := by
  rw [takeCorrection_waiting hne]
  have hdrop := dropLast_ne _ hne
  refine ⟨fun hnil => ?_, fun hrest hlen hx => ?_, fun e hrest hx he => ?_, fun us rest h => ?_⟩
  · obtain ⟨ht, hf⟩ := passedOn_waits s.trans.lookahead (setLookahead s.trans.lookahead.dropLast s) (.inl hnil)
    rw [hnil] at ht hf ⊢
    exact ⟨ht.trans (by simp [Ne.symm hne]), hf.textKept⟩
  · obtain ⟨ht, hf⟩ := passedOn_waits s.trans.lookahead (setLookahead s.trans.lookahead.dropLast s)
      (.inr ⟨by simp; omega, hx⟩)
    exact ⟨ht.trans (by simp [hdrop, hrest]), hf.textKept⟩
  · exact passedOn_whole _ (setLookahead s.trans.lookahead.dropLast s) e hrest hne (.inr hx) he
  · exact passedOn_outcome (s := setLookahead s.trans.lookahead.dropLast s) _ h

end Taken

/-- Settles O33: an ordinary stroke in LIVE and outside it, and a correction with strokes waiting, with a unit to retract, and with neither. -/
theorem strokeHandoverTakesTheOldestStroke : Obligations.StrokeHandoverTakesTheOldestStroke := by
  intro s k ks hs
  obtain ⟨hset, hhanded, hnotices⟩ := takeStroke_trans_keeps k (setHanded ks s)
  refine ⟨_, exec_strokeHandover s k ks hs, by simpa using hhanded, takeStroke_upstream k (setHanded ks s), by simpa using hset,
    by simpa using hnotices, fun hl hk hlen hx => ?_, fun hl hk hla hx => ?_, fun us rest hl hk h => ?_, fun us hl hk h => ?_,
    fun hl hk hla => ?_, fun hl hk => ?_, fun hl hk hne => ?_, fun u us rest hl hk hla hu h => ?_, fun u hl hk hla hu hw => ?_,
    fun hl hk hla hh => ?_⟩
  · rw [takeStroke_ordinary (s := setHanded ks s) hl hk]
    exact ordinary_waits (s := setHanded ks s) hlen hx
  · rw [takeStroke_ordinary (s := setHanded ks s) hl hk]
    exact ordinary_alone (s := setHanded ks s) hla hx
  · rw [takeStroke_ordinary (s := setHanded ks s) hl hk, takeOrdinary_passedOn]
    exact passedOn_outcome (s := setLookahead (s.trans.lookahead ++ [k.held3]) (setHanded ks s)) _ h
  · rw [takeStroke_late (s := setHanded ks s) hl hk]
    obtain ⟨h1, h2, h3, h4⟩ := late_outcome (s := setHanded ks s) h
    exact ⟨h1, h2, h3, h4, fun n l hw => late_words (s := setHanded ks s) h n l hw⟩
  · rw [takeStroke_late (s := setHanded ks s) hl hk]
    exact late_alone (s := setHanded ks s) hla
  · rw [takeStroke_lateCorrection (s := setHanded ks s) hl hk]
    obtain ⟨h1, h2, h3⟩ := lateCorrection_told (setHanded ks s)
    exact ⟨h1, h2, h3.textKept⟩
  · rw [takeStroke_correction (s := setHanded ks s) hl hk]
    exact correction_waiting (s := setHanded ks s) hne
  · rw [takeStroke_correction (s := setHanded ks s) hl hk, takeCorrection_unit (s := setHanded ks s) hla u hu]
    exact handedBack_outcome u (setHanded ks s) h
  · rw [takeStroke_correction (s := setHanded ks s) hl hk, takeCorrection_unit (s := setHanded ks s) hla u hu]
    obtain ⟨ht, hf⟩ := handedBack_waits u (setHanded ks s) hw
    refine ⟨ht, textTakenBack_counter (s := setHanded ks s) hf, fun hp => ?_, fun p l hp hc hfl hu => ?_, fun p hp hc => ?_⟩
    · rw [textTakenBack_none hp] at hf
      exact hf.textKept
    · rw [textTakenBack_inside hp hc] at hf
      exact takenBack_inside hf l hfl hu
    · rw [textTakenBack_whole hp hc] at hf
      obtain ⟨h1, h2, h3, h4, h5⟩ := takenBack_whole hf
      exact ⟨h1, h2, h3, fun ho => h4 (.inl ho), fun hb => h4 (.inr fun l hl => absurd (hb.symm.trans hl) (by simp)),
        fun l ho hb hc => h4 (.inr fun l' hl' => Option.some.inj (hb.symm.trans hl') ▸ hc), h5⟩
  · rw [takeStroke_correction (s := setHanded ks s) hl hk, takeCorrection_none (s := setHanded ks s) hla hh]
    obtain ⟨h1, h2, h3⟩ := lateCorrection_told (setHanded ks s)
    exact ⟨h1, h2, by rw [h3.2]; rfl, by rw [h3.2]; rfl⟩

end Sys2Proof.Machine

/-! Edit Line (O37): the line, its marks, the entry and the notice, and the edit queue of each feed through the choices that follow. -/

namespace Sys2Proof.Machine

/-! ### The edit queues through the feeds' choices -/

/-- The feed's next choice serves its edit queue: it is LIVE with no frame in flight (R163, R164). -/
def Feed.AtBoundary (c : Feed) : Prop := c.state = .live ∧ c.flight = none

/-- Every feed but `f` holds its edit queue and what it has in flight. -/
def OthersHeld (f : Fin 4) (s t : State) : Prop :=
  ∀ g, f ≠ g → (feed t g).edits = (feed s g).edits ∧ (feed t g).flight = (feed s g).flight

theorem OthersHeld.of_eq {f : Fin 4} {s t : State} (h : t.feeds = s.feeds) : OthersHeld f s t := fun g _ => by
  simp only [feed, h, and_self]

/-- Two changes one after the other, told from the end. -/
theorem OthersHeld.after {f : Fin 4} {s t u : State} (h2 : OthersHeld f t u) (h1 : OthersHeld f s t) : OthersHeld f s u := fun g hg =>
  ⟨(h2 g hg).1.trans (h1 g hg).1, (h2 g hg).2.trans (h1 g hg).2⟩

theorem setFeedCtx_others (f : Fin 4) (c : Feed) (s : State) : OthersHeld f s (setFeedCtx f c s) := fun g hg => by
  simp [feed_setFeedCtx, hg]

theorem refreshHealth_others (f : Fin 4) (s : State) : OthersHeld f s (refreshHealth f s) := fun g hg => by
  simp [feed_refreshHealth, hg]

theorem removeDone_others (f : Fin 4) (s : State) : OthersHeld f s (removeDone s) := fun g _ => by
  rw [removeDone, feed_liftLowWaters]
  exact ⟨rfl, rfl⟩

theorem startFrame_others (f : Fin 4) (d : Due) (s : State) : OthersHeld f s (startFrame f d s) := by
  unfold startFrame
  cases d with
  | update l q => exact .after (t := setFeedCtx f _ s) (.of_eq rfl) (setFeedCtx_others f _ s)
  | line l => exact .after (refreshHealth_others f _) (.after (t := setFeedCtx f _ s) (.of_eq rfl) (setFeedCtx_others f _ s))
  | withdraw l => exact .after (removeDone_others f _) (.after (t := setFeedCtx f _ s) (.of_eq rfl) (setFeedCtx_others f _ s))
  | withheld l => exact .after (refreshHealth_others f _) (setFeedCtx_others f _ s)
  | idle => exact setFeedCtx_others f _ s
  | test =>
    dsimp only
    split
    · exact .of_eq rfl
    · exact setFeedCtx_others f _ s

theorem actOn_others (f : Fin 4) (d : Due) (s : State) : OthersHeld f s (actOn f d s) := by
  unfold actOn
  split
  · exact startFrame_others f d s
  · exact setFeedCtx_others f _ s

theorem chooseLive_others (f : Fin 4) (s : State) : OthersHeld f s (chooseLive f s) := by
  unfold chooseLive
  dsimp only
  refine .after (setFeedCtx_others f _ _) ?_
  split
  · exact .after (actOn_others f _ _) (setFeedCtx_others f _ s)
  · exact setFeedCtx_others f _ s

/-- A choice is a feed's own: of the other feeds it leaves queue and flight. -/
theorem choose_others (f : Fin 4) (s : State) : OthersHeld f s (choose f s) := by
  have hstay : OthersHeld f s s := .of_eq rfl
  unfold choose
  dsimp only
  repeat' split
  · exact hstay
  · exact chooseLive_others f s
  · exact actOn_others f .idle s
  · exact hstay
  · exact actOn_others f .test s
  · exact hstay
  · exact hstay
  · exact hstay

/-- A frame that names no line takes nothing from the queue. -/
theorem actOn_lineless_queue (f : Fin 4) (d : Due) (s : State) (hd : d = .idle ∨ d = .test) :
    (feed (actOn f d s) f).edits = (feed s f).edits := by
  unfold actOn startStall
  split
  · rcases hd with rfl | rfl
    · simp [startFrame, setFlight]
    · dsimp only [startFrame]
      split <;> simp
  · simp

/-- Outside LIVE no choice serves the queue (R164, R176, R177). -/
theorem choose_queue_of_not_live (f : Fin 4) (s : State) (h : (feed s f).state ≠ .live) :
    (feed (choose f s) f).edits = (feed s f).edits := by
  unfold choose
  dsimp only
  repeat' split
  · rfl
  · exact absurd ‹_› h
  · exact actOn_lineless_queue f .idle s (.inl rfl)
  · rfl
  · exact actOn_lineless_queue f .test s (.inr rfl)
  · rfl
  · rfl
  · rfl

/-- With a frame in flight a feed makes no choice (R163). -/
theorem choose_inFlight (f : Fin 4) (s : State) (h : (feed s f).flight ≠ none) : choose f s = s :=
  if_pos (Option.isSome_iff_ne_none.2 h)

/-- A feed whose edit queue waits holds it, and it goes on waiting. -/
def WaitingHeld (s t : State) : Prop :=
  ∀ g, ¬(feed s g).AtBoundary → ¬(feed t g).AtBoundary ∧ (feed t g).edits = (feed s g).edits

theorem WaitingHeld.trans {s t u : State} (h1 : WaitingHeld s t) (h2 : WaitingHeld t u) : WaitingHeld s u := fun g hg =>
  have ⟨ht, he⟩ := h1 g hg
  have ⟨hu, he'⟩ := h2 g ht
  ⟨hu, he'.trans he⟩

theorem choose_waiting (f : Fin 4) (s : State) : WaitingHeld s (choose f s) := by
  intro g hg
  have hstate : (feed (choose f s) g).state = (feed s g).state := ((choose_kept f s).2 g).state
  by_cases hfg : f = g
  · subst hfg
    by_cases hlive : (feed s f).state = .live
    · rw [choose_inFlight f s fun hnone => hg ⟨hlive, hnone⟩]
      exact ⟨hg, rfl⟩
    · exact ⟨fun hb => hlive (hstate ▸ hb.1), choose_queue_of_not_live f s hlive⟩
  · obtain ⟨hedits, hflight⟩ := choose_others f s g hfg
    exact ⟨fun hb => hg ⟨hstate ▸ hb.1, hflight ▸ hb.2⟩, hedits⟩

theorem chooseAll_waiting (s : State) : WaitingHeld s (chooseAll s) :=
  (((choose_waiting 0 s).trans (choose_waiting 1 _)).trans (choose_waiting 2 _)).trans (choose_waiting 3 _)

/-! ### The edit notice at the feeds (R170) -/

theorem queueEdit_held {n : Nat} {q : List Nat} (h : n ∈ q) : queueEdit n q = (q, false) := if_pos h

theorem queueEdit_joins {n : Nat} {q : List Nat} (h : n ∉ q) (hq : q.length < 16) : queueEdit n q = (q ++ [n], false) :=
  (if_neg h).trans (if_pos hq)

theorem queueEdit_overflows {n : Nat} {q : List Nat} (h : n ∉ q) (hq : 16 ≤ q.length) : queueEdit n q = (q.drop 1 ++ [n], true) :=
  (if_neg h).trans (if_neg (Nat.not_lt.2 hq))

/-- A feed's context once a line's edit has been told it (R170). -/
def Feed.edited (n : Nat) (c : Feed) : Feed :=
  if c.state.enabled then
    { c with
      edits := (queueEdit n c.edits).1
      outOfStep := c.outOfStep || (queueEdit n c.edits).2
      health := healthOf { c with edits := (queueEdit n c.edits).1, outOfStep := c.outOfStep || (queueEdit n c.edits).2 } }
  else c

theorem feed_takeEdit (n : Nat) (s : State) (f g : Fin 4) :
    feed (takeEdit n s f) g = if f = g then (feed s g).edited n else feed s g := by
  unfold takeEdit Feed.edited
  by_cases hfg : f = g
  · subst hfg
    by_cases he : (feed s f).state.enabled = true <;> simp [he, feed_refreshHealth]
  · dsimp only
    split <;> simp [feed_refreshHealth, feed_setFeedCtx, hfg]

theorem feed_editNotice (n : Nat) (s : State) (g : Fin 4) : feed (editNotice n s) g = (feed s g).edited n := by
  unfold editNotice allFeeds
  match g with
  | 0 => simp [feed_takeEdit]
  | 1 => simp [feed_takeEdit]
  | 2 => simp [feed_takeEdit]
  | 3 => simp [feed_takeEdit]

theorem Feed.edited_atBoundary (n : Nat) (c : Feed) : (c.edited n).AtBoundary ↔ c.AtBoundary := by
  unfold Feed.edited
  split <;> rfl

theorem Feed.edited_of_disabled (n : Nat) (c : Feed) (h : c.state.enabled = false) : c.edited n = c := if_neg (by simp [h])

theorem Feed.edited_queue (n : Nat) (c : Feed) (h : c.state.enabled = true) :
    (c.edited n).edits = (queueEdit n c.edits).1 ∧ (c.edited n).outOfStep = (c.outOfStep || (queueEdit n c.edits).2) := by
  rw [Feed.edited, if_pos h]
  exact ⟨rfl, rfl⟩

/-! ### The edit taken (R137) -/

/-- The line rewritten, and its edit told the feeds and the Mark Table. -/
def editMade (l : Line) (text : List Byte) (s : State) : State :=
  reviseMarks l.serial (editNotice l.serial (setRecords (updateLine l.serial (fun x => x.edit text) s.lines.records) s))

/-- The same, with the EDIT entry asked for where the session is open. -/
def editLogged (l : Line) (text : List Byte) (s : State) : State :=
  if s.session.st.isOpen then append (editEntry (l.edit text) (editMade l text s)) (editMade l text s) else editMade l text s

section Edit
variable (l : Line) (text : List Byte) (s : State)

theorem applyEdit_eq : applyEdit l text s = chooseAll (post .bench .lineEdited (editLogged l text s)) := rfl

@[simp] theorem editMade_keeps :
    (editMade l text s).session = s.session ∧ (editMade l text s).journal = s.journal ∧
    (editMade l text s).lines = { s.lines with records := updateLine l.serial (fun x => x.edit text) s.lines.records } := by
  simp [editMade]

/-- The entry leaves the lines, the marks and the feeds. -/
@[simp] theorem editLogged_keeps :
    (editLogged l text s).lines = (editMade l text s).lines ∧ (editLogged l text s).marks = (editMade l text s).marks ∧
    (editLogged l text s).feeds = (editMade l text s).feeds := by
  unfold editLogged
  split <;> simp

/-- The bench is told of the edit. -/
theorem applyEdit_told : latchHolds .lineEdited (applyEdit l text s).bench.attn = true :=
  (chooseAll_flags (post .bench .lineEdited (editLogged l text s))).holds .bench .lineEdited (by simp [post])

/-- The line's ATTACHED marks become REVISED (R193). -/
theorem applyEdit_marks : (applyEdit l text s).marks.records = s.marks.records.map (fun m =>
    if m.serial = l.serial ∧ m.detached = false ∧ m.revised = false then { m with revised := true } else m) := by
  simp [applyEdit_eq, editMade, reviseMarks, becomesRevised, and_assoc]

/-- With no session open no entry is asked for. -/
theorem applyEdit_journal (h : s.session.st.isOpen = false) : (applyEdit l text s).journal = s.journal := by
  simp [applyEdit_eq, editLogged, h]

/-- The EDIT entry, written out (R219). -/
theorem editEntry_edit : editEntry (l.edit text) s =
    { kind := .edit, attrs := BitVec.ofNat 8 l.cls.code, seq := l.serial, time := s.session.clock
      fieldA := l.page * 256 + l.line
      fieldB := (if l.revision < 65535 then l.revision + 1 else 65535) * 256 + text.length } := by
  simp [editEntry, Line.edit, replaceText, clsAttrs, pageLine, succHold, max16]

/-- The EDIT entry joins the FILLING block. -/
theorem applyEdit_joins (h : s.session.st.isOpen = true) :
    EntryJoins (editEntry (l.edit text) s) s (applyEdit l text s) := by
  have hentry : editEntry (l.edit text) (editMade l text s) = editEntry (l.edit text) s := by simp [editEntry]
  have hlogged : editLogged l text s = append (editEntry (l.edit text) s) (editMade l text s) := by
    rw [editLogged, if_pos h, hentry]
  exact (append_joins _ (editMade l text s)).congr (by simp) (by simp [applyEdit_eq, hlogged])

/-- The line stands rewritten, but for what the feeds record in it (R137). -/
theorem applyEdit_line (h : findLine s.lines.records l.serial = some l) (hl : l.state = .settled) :
    ∃ x, findLine (applyEdit l text s).lines.records l.serial = some x ∧ x.body = (l.edit text).body := by
  have hfed : FedFrom (updateLine l.serial (fun x => x.edit text) s.lines.records) (applyEdit l text s).lines.records := by
    simpa [applyEdit_eq] using (chooseAll_fed (post .bench .lineEdited (editLogged l text s))).1
  refine hfed.find (l := l.edit text) ?_ (by simp [Line.edit, hl])
  rw [findLine_updateLine _ _ (fun x => x.edit text) fun _ => rfl, h]
  simp

/-- What the edit leaves of a feed's edit queue where no choice serves it, and whether the feed is out of step (R170). -/
theorem applyEdit_feed (f : Fin 4) :
    (¬(feed s f).AtBoundary → (feed (applyEdit l text s) f).edits = ((feed s f).edited l.serial).edits) ∧
    (feed (applyEdit l text s) f).outOfStep = ((feed s f).edited l.serial).outOfStep := by
  have hbefore : feed (post .bench .lineEdited (editLogged l text s)) f = (feed s f).edited l.serial := by
    calc feed (post .bench .lineEdited (editLogged l text s)) f
      _ = feed (editMade l text s) f := by simp [feed]
      _ = feed (editNotice l.serial (setRecords (updateLine l.serial (fun x => x.edit text) s.lines.records) s)) f := by
        simp [feed, editMade]
      _ = (feed s f).edited l.serial := feed_editNotice _ _ f
  have hsteady := ((chooseAll_kept (post .bench .lineEdited (editLogged l text s))).2 f).outOfStep
  have hwaits := chooseAll_waiting (post .bench .lineEdited (editLogged l text s)) f
  rw [hbefore] at hsteady hwaits
  rw [Feed.edited_atBoundary] at hwaits
  exact ⟨fun hb => (hwaits hb).2, hsteady⟩

end Edit

/-! ### The request -/

theorem exec_editLine (tag : Byte) (s : State) (a : EditLineArgs) (ht : Takes .reporter s) :
    exec (.editLine .reporter tag (.fields a)) s =
      .next (deliver .reporter Req.editLine.code tag (editLine a (touchPresence .reporter s))) :=
  congrArg _ (serve_takes _ _ _ _ _ s ht rfl)

/-- A refusal of Edit Line changes nothing but what the frame's arrival does (R136). -/
theorem exec_editLine_refused (tag : Byte) (s : State) (a : EditLineArgs) (ht : Takes .reporter s) (st : Status)
    (h : editLine a (touchPresence .reporter s) = refuse st (touchPresence .reporter s)) :
    exec (.editLine .reporter tag (.fields a)) s = .next (answered .reporter .editLine tag st [] (touchPresence .reporter s)) := by
  rw [exec_editLine tag s a ht, h]
  rfl

section Answers
variable {a : EditLineArgs} {s : State}

theorem editLine_closing (h : s.session.st = .closing) : editLine a s = refuse .wrongState s := if_pos h

theorem editLine_notFound (hc : s.session.st ≠ .closing) (h : findLine s.lines.records a.serial = none) :
    editLine a s = refuse .notFound s := by
  simp [editLine, hc, h]

variable {l : Line} (hc : s.session.st ≠ .closing) (h : findLine s.lines.records a.serial = some l)
include hc h

theorem editLine_notSettled (hl : l.state ≠ .settled) : editLine a s = refuse .notSettled s := by
  simp [editLine, hc, h, hl]

theorem editLine_tooLong (hl : l.state = .settled) (hw : s.lines.width < a.text.length) : editLine a s = refuse .range s := by
  simp [editLine, hc, h, hl, hw]

theorem editLine_taken (hl : l.state = .settled) (hw : a.text.length ≤ s.lines.width) :
    editLine a s = .done .ok (be 2 (l.edit a.text).revision ++ be 1 (replacedCount a.text)) (applyEdit l a.text s) := by
  simp [editLine, hc, h, hl, Nat.not_lt.2 hw]

end Answers

/-- Settles O37: the edit taken, part by part, and the four refusals. -/
theorem editLineRewritesASettledLine : Obligations.EditLineRewritesASettledLine := by
  intro tag s a ht
  refine ⟨fun l hc hf hl hw => ?_, fun hc => ?_, fun hc hf => ?_, fun l hc hf hl => ?_, fun l hc hf hl hw => ?_⟩
  · obtain hserial : l.serial = a.serial := by simpa using List.find?_some hf
    obtain ⟨x, hx, hbody⟩ := applyEdit_line l a.text (touchPresence .reporter s) (by simpa [hserial] using hf) hl
    obtain ⟨-, hpage, hnum, hcls, hstate, hrev, htext, hrange, hedited, -⟩ := Line.body_inj hbody
    have hsession := (applyEdit_session l a.text (touchPresence .reporter s)).eq (by simpa using hc)
    have hmarks := applyEdit_marks l a.text (touchPresence .reporter s)
    have hfeed := applyEdit_feed l a.text (touchPresence .reporter s)
    simp only [feed_touchPresence, touchPresence_keeps] at hsession hmarks hfeed
    refine ⟨answered .reporter .editLine tag .ok (be 2 (l.edit a.text).revision ++ be 1 (replacedCount a.text))
      (applyEdit l a.text (touchPresence .reporter s)), ?_, rfl, applyEdit_told l a.text _, ?_, fun hs => ?_, fun hs => ?_,
      ⟨x, ?_, htext, hedited, hstate.trans hl, hrev, hpage, hnum, hcls, hrange⟩, fun f hd => ?_, fun f hwaits => ?_, ?_⟩
    · rw [exec_editLine tag s a ht, editLine_taken (by simpa using hc) (by simpa using hf) hl (by simpa using hw)]
      rfl
    · simpa using hmarks
    · simpa using applyEdit_journal l a.text (touchPresence .reporter s) (by simp [hs, SessState.isOpen])
    · have hjoins := applyEdit_joins l a.text (touchPresence .reporter s) (by rcases hs with hs | hs <;> simp [hs, SessState.isOpen])
      simp only [editEntry_edit, touchPresence_keeps] at hjoins
      exact hjoins.congr (by simp) (by simp)
    · simpa [hserial] using hx
    · have hb : ¬(feed s f).AtBoundary := fun hb => by simp [hb.1, FeedState.enabled] at hd
      rw [feed_answered, (hfeed f).1 hb, Feed.edited_of_disabled _ _ hd]
    · have hb : ¬(feed s f).AtBoundary := fun hb => by simp [hb.1, hb.2] at hwaits
      have he : (feed s f).state.enabled = true := by rcases hwaits with h | h | ⟨h, -⟩ <;> simp [h, FeedState.enabled]
      obtain ⟨hedits, hstep⟩ := Feed.edited_queue l.serial (feed s f) he
      rw [feed_answered, (hfeed f).1 hb, (hfeed f).2, hedits, hstep]
      exact ⟨fun hq => by simp [queueEdit_held hq], fun hq hlen => by simp [queueEdit_joins hq hlen],
        fun hq hlen => by simp [queueEdit_overflows hq hlen]⟩
    · simp [OutsideKept, hsession]
  · exact exec_editLine_refused tag s a ht _ (editLine_closing (by simpa using hc))
  · exact exec_editLine_refused tag s a ht _ (editLine_notFound (by simpa using hc) (by simpa using hf))
  · exact exec_editLine_refused tag s a ht _ (editLine_notSettled (by simpa using hc) (by simpa using hf) hl)
  · exact exec_editLine_refused tag s a ht _ (editLine_tooLong (by simpa using hc) (by simpa using hf) hl (by simpa using hw))

end Sys2Proof.Machine

/-! Class Control (chapter 7): what forming the effective class afresh changes, tells and asks for; SBAR followed (O38) and Set Class (O39). -/

namespace Sys2Proof.Machine

/-! ### The effective class formed afresh -/

section Reform
variable (cause : Nat) (s : State)

theorem reformClass_same (h : effectiveOf s.cls.bench s.cls.sbar = s.cls.effective) : reformClass cause s = s := if_pos h

/-- A change in LIVE or RECESS, with its entry and its notice (R149, R150). -/
theorem reformClass_open (h : effectiveOf s.cls.bench s.cls.sbar ≠ s.cls.effective) (ho : s.session.st.isOpen = true) :
    reformClass cause s = postBoth .classChanged (append
      (classEntry s.cls.effective cause (setEffective (effectiveOf s.cls.bench s.cls.sbar) s))
      (setEffective (effectiveOf s.cls.bench s.cls.sbar) s)) :=
  (if_neg h).trans (if_pos ho)

/-- In every session state the class formed is the one of both sources, and nothing else of Class Control changes (R148). -/
@[simp] theorem reformClass_cls : (reformClass cause s).cls = { s.cls with effective := effectiveOf s.cls.bench s.cls.sbar } := by
  unfold reformClass
  dsimp only
  split
  · next h => rw [h]
  · split <;> simp [setEffective]

variable {s} (h : effectiveOf s.cls.bench s.cls.sbar ≠ s.cls.effective) (ho : s.session.st.isOpen = true)
include h ho

/-- A change in an open session is told on both links (R149). -/
theorem reformClass_told : latchHolds .classChanged (reformClass cause s).reporter.attn = true ∧
    latchHolds .classChanged (reformClass cause s).bench.attn = true := by
  rw [reformClass_open cause s h ho]
  exact postBoth_holds _ _

/-- A change in an open session asks for its CLASS entry (R150). -/
theorem reformClass_joins :
    EntryJoins (classEntry s.cls.effective cause (setEffective (effectiveOf s.cls.bench s.cls.sbar) s)) s (reformClass cause s) := by
  rw [reformClass_open cause s h ho]
  exact (append_joins _ (setEffective (effectiveOf s.cls.bench s.cls.sbar) s)).congr rfl (by simp)

end Reform

/-! ### SBAR -/

/-- The indication takes the level on the pin, and the class follows it (R144, R148). -/
@[simp] theorem takeSbar_cls (s : State) : (takeSbar s).cls =
    { s.cls with sbar := s.pins.sbar, timer := none, effective := effectiveOf s.cls.bench s.pins.sbar } := by
  unfold takeSbar
  dsimp only
  split <;> simp

/-- An assertion taken is told on both links (R146). -/
theorem takeSbar_told (s : State) (h : s.pins.sbar = true) :
    latchHolds .sidebarLine (takeSbar s).reporter.attn = true ∧ latchHolds .sidebarLine (takeSbar s).bench.attn = true := by
  have hposted := postBoth_holds .sidebarLine { s with cls := { s.cls with sbar := s.pins.sbar, timer := none } }
  have hkept := reformClass_flags 2 (postBoth .sidebarLine { s with cls := { s.cls with sbar := s.pins.sbar, timer := none } })
  rw [takeSbar, if_pos h]
  exact ⟨hkept.holds .reporter _ hposted.1, hkept.holds .bench _ hposted.2⟩

/-- SBAR at another level with RSTN released is compared with the indication (R144). -/
theorem sbarChanged_followed (s : State) (high : Bool) (hr : s.pins.rstnHeld = false) (h : s.pins.sbar ≠ high) :
    sbarChanged high s = followSbar { s with pins := { s.pins with sbar := high } } := by
  simp [sbarChanged, h, hr]

theorem followSbar_equal (s : State) (h : s.pins.sbar = s.cls.sbar) : followSbar s = { s with cls := { s.cls with timer := none } } :=
  if_pos h

theorem followSbar_atOnce (s : State) (h : s.pins.sbar ≠ s.cls.sbar) (h0 : s.cls.setting = 0) : followSbar s = takeSbar s :=
  (if_neg h).trans (if_pos h0)

theorem followSbar_starts (s : State) (h : s.pins.sbar ≠ s.cls.sbar) (h0 : s.cls.setting ≠ 0) :
    followSbar s = { s with cls := { s.cls with timer := some (s.now + s.cls.setting) } } :=
  (if_neg h).trans (if_neg h0)

theorem deglitchExpired_due (s : State) (e : Nat) (h : s.cls.timer = some e) (he : e ≤ s.now) : deglitchExpired s = takeSbar s := by
  simp [deglitchExpired, Timer.due, h, he]

theorem deglitchExpired_early (s : State) (e : Nat) (h : s.cls.timer = some e) (he : s.now < e) : deglitchExpired s = s := by
  simp [deglitchExpired, Timer.due, h, he]

/-- Settles O38: a change of level by what the indication and the setting are, and the expiry due or early. -/
theorem sbarIsFollowedThroughTheDeglitch : Obligations.SbarIsFollowedThroughTheDeglitch := by
  intro s high hr
  refine ⟨fun h => ?_, fun h hi => ?_, fun h hi h0 => ?_, fun h hi h0 => ?_, fun e ht he => ?_, fun e ht he => ?_⟩
  · exact congrArg Host.Outcome.next (if_pos h)
  · exact congrArg Host.Outcome.next ((sbarChanged_followed s high hr h).trans (followSbar_equal _ hi.symm))
  · exact congrArg Host.Outcome.next ((sbarChanged_followed s high hr h).trans (followSbar_starts _ (Ne.symm hi) h0))
  · refine ⟨takeSbar { s with pins := { s.pins with sbar := high } }, ?_, by simp, by simp, by simp, fun hh => takeSbar_told _ hh⟩
    exact congrArg Host.Outcome.next ((sbarChanged_followed s high hr h).trans (followSbar_atOnce _ (Ne.symm hi) h0))
  · refine ⟨takeSbar s, congrArg Host.Outcome.next (deglitchExpired_due s e ht he), by simp, by simp, by simp, takeSbar_told s,
      (takeSbar_session s).eq, ?_⟩
    simp [OutsideKept]
  · exact congrArg Host.Outcome.next (deglitchExpired_early s e ht he)

/-! ### Set Class -/

/-- The state once Set Class has set the bench class and the effective class is formed from it (R147). -/
def classSet (c : Cls) (s : State) : State := reformClass 1 { s with cls := { s.cls with bench := c } }

section ClassSet
variable (c : Cls) (s : State)

@[simp] theorem classSet_cls : (classSet c s).cls = { s.cls with bench := c, effective := effectiveOf c s.cls.sbar } := by
  simp [classSet]

@[simp] theorem classSet_keeps :
    (classSet c s).ksu = s.ksu ∧ (classSet c s).chords = s.chords ∧ (classSet c s).memory = s.memory ∧
    (classSet c s).dict = s.dict ∧ (classSet c s).trans = s.trans ∧ (classSet c s).lines = s.lines ∧
    (classSet c s).feeds = s.feeds ∧ (classSet c s).marks = s.marks ∧ (classSet c s).pins = s.pins ∧
    (classSet c s).now = s.now ∧ (classSet c s).pending = s.pending := by
  simp [classSet]

theorem classSet_session (h : s.session.st ≠ .closing) : (classSet c s).session = s.session :=
  (reformClass_session 1 { s with cls := { s.cls with bench := c } }).eq h

/-- A bench class that leaves the effective class leaves the journal. -/
theorem classSet_journal (h : effectiveOf c s.cls.sbar = s.cls.effective) : (classSet c s).journal = s.journal := by
  rw [classSet, reformClass_same _ _ h]

theorem classSet_told (h : effectiveOf c s.cls.sbar ≠ s.cls.effective) (ho : s.session.st.isOpen = true) :
    latchHolds .classChanged (classSet c s).reporter.attn = true ∧ latchHolds .classChanged (classSet c s).bench.attn = true :=
  reformClass_told 1 h ho

/-- The CLASS entry of Set Class, written out (R150, R219). -/
theorem classSet_joins (h : effectiveOf c s.cls.sbar ≠ s.cls.effective) (ho : s.session.st.isOpen = true) :
    EntryJoins
      { kind := .cls, attrs := BitVec.ofNat 8 (effectiveOf c s.cls.sbar).code, seq := s.chords.strokes, time := s.session.clock
        fieldA := (effectiveOf c s.cls.sbar).code * 65536 + c.code * 256 + (if s.cls.sbar then 1 else 0)
        fieldB := s.cls.effective.code * 65536 + 256 } s (classSet c s) :=
  reformClass_joins 1 (s := { s with cls := { s.cls with bench := c } }) h ho

end ClassSet

section Answers
variable {n : Nat} {c : Cls} {s : State}

theorem setClass_wrongState (h : s.session.st.isOpen = false) : setClass n s = refuse .wrongState s := if_pos h

theorem setClass_range (ho : s.session.st.isOpen = true) (h : Cls.ofCode n = none) : setClass n s = refuse .range s := by
  simp [setClass, ho, h]

theorem setClass_already (ho : s.session.st.isOpen = true) (h : Cls.ofCode n = some c) (hb : s.cls.bench = c) :
    setClass n s = refuse .already s := by
  simp [setClass, ho, h, hb]

theorem setClass_taken (ho : s.session.st.isOpen = true) (h : Cls.ofCode n = some c) (hb : s.cls.bench ≠ c) :
    setClass n s = .done .ok (classPayload (classSet c s)) (classSet c s) := by
  simp [setClass, ho, h, hb, classSet]

end Answers

/-- No number past CHAMBERS names a class (R217). -/
theorem Cls.ofCode_of_three_le {m : Nat} (h : 3 ≤ m) : Cls.ofCode m = none := by
  match m, h with
  | m + 3, _ => rfl

theorem SessState.isOpen_of {st : SessState} (h : st = .live ∨ st = .recess) : st.isOpen = true := by
  rcases h with rfl | rfl <;> rfl

/-- Set Class on a ready bench link is answered by Class Control. -/
theorem exec_setClass {tag : Byte} {s : State} {n : Nat} (ht : Takes .bench s) {y : Reply} (h : setClass n (touchPresence .bench s) = y) :
    exec (.setClass .bench tag (.fields n)) s = .next (deliver .bench Req.setClass.code tag y) :=
  h ▸ congrArg Host.Outcome.next (serve_takes .bench tag .setClass n setClass s ht rfl)

/-- Settles O39: the refusals in their order, and the class taken. -/
theorem setClassFormsTheClassAfresh : Obligations.SetClassFormsTheClassAfresh := by
  intro tag s n c ht hn
  refine ⟨fun m ho hm => ?_, fun ho hb => ?_, fun hs => ?_, fun ho hb => ?_⟩
  · exact exec_setClass ht (setClass_range (by simpa using SessState.isOpen_of ho) (Cls.ofCode_of_three_le hm))
  · exact exec_setClass ht (setClass_already (by simpa using SessState.isOpen_of ho) hn (by simpa using hb))
  · exact exec_setClass ht (setClass_wrongState (by rcases hs with hs | hs <;> simp [hs, SessState.isOpen]))
  · have hopen : (touchPresence .bench s).session.st.isOpen = true := by simpa using SessState.isOpen_of ho
    have hjoins := fun h ho => (classSet_joins c (touchPresence .bench s) h ho).congr (s' := s) (by simp) rfl
    have htold := classSet_told c (touchPresence .bench s)
    have hjournal := classSet_journal c (touchPresence .bench s)
    have hsession := classSet_session c (touchPresence .bench s) (by rcases ho with ho | ho <;> simp [ho])
    simp only [touchPresence_keeps] at hopen hjoins htold hjournal hsession
    refine ⟨_, exec_setClass ht (setClass_taken (by simpa using hopen) hn (by simpa using hb)), ?_⟩
    simp only [deliver_done, answered_keeps, classSet_keeps, classSet_cls, touchPresence_keeps, OutsideKept, hsession, and_self, and_true]
    refine ⟨rfl, ⟨_, rfl, rfl, rfl, rfl⟩, fun h => htold h hopen, hjournal, fun i b h hc hf hlen hseq => ?_⟩
    rw [hjoins h hopen i b hc hf hlen hseq]

end Sys2Proof.Machine

/-! The effective class stays the more restrictive of its two sources (O40): few commands reach Class Control, and each of them forms the class
afresh or leaves both sources and the class. -/

namespace Sys2Proof.Machine

/-- The commands that can change the record of Class Control: the resets and the fetch that can bring one (R68, R155), SBAR and its deglitch
timer (R144), Set Class (R147), Open Session (R153), and the deglitch setting (R207). -/
def reachesClass : Instr → Bool
  | .powerOn | .rstnAssert | .rstnRelease | .resetPartTimeout | .fetch _ _ => true
  | .sbarChange _ | .deglitchExpiry => true
  | .setClass _ _ _ | .openSession _ _ _ | .setTranslationParameters _ _ _ => true
  | _ => false

/-! ### The commands of the blocks that leave Class Control -/

section Commands
variable (s : State)

theorem holdExpiry_cls : (holdExpiry s).cls = s.cls := by
  unfold holdExpiry
  repeat' split
  all_goals simp

theorem zeroingDone_cls : (zeroingDone s).cls = s.cls := by
  unfold zeroingDone
  repeat' split
  all_goals simp

theorem intervalExpiry_cls : (intervalExpiry s).cls = s.cls := by
  unfold intervalExpiry
  split <;> simp

theorem startWrite_cls : (startWrite s).cls = s.cls := by
  unfold startWrite
  repeat' split
  all_goals rfl

theorem startReporterTransfer_cls : (startReporterTransfer s).cls = s.cls := by
  unfold startReporterTransfer
  repeat' split
  all_goals rfl

theorem endWrite_cls (ok : Bool) : (endWrite ok s).cls = s.cls := by
  rcases endWrite_cases ok s with e | ⟨i, slot, b, n, -, -, e⟩ <;> rw [e]
  split <;> simp [writeStored, writeFailed]

theorem endRead_cls (r : SlotRead) : (endRead r s).cls = s.cls := by
  unfold endRead
  repeat' split
  all_goals simp

theorem endClear_cls (ok : Bool) : (endClear ok s).cls = s.cls := by
  unfold endClear
  repeat' split
  all_goals simp [clearDone, clearFailed]

theorem recoverSlot_cls (r : RecoveryRead) : (recoverSlot r s).cls = s.cls := by
  unfold recoverSlot
  repeat' split
  all_goals rfl

theorem finishRecovery_cls : (finishRecovery s).cls = s.cls := by
  unfold finishRecovery
  split <;> simp

theorem buildDone_cls : (buildDone s).cls = s.cls := by
  unfold buildDone
  split <;> simp

theorem takeNext_cls : (takeNext s).cls = s.cls := by
  unfold takeNext
  split <;> simp

theorem resolutionExpired_cls : (resolutionExpired s).cls = s.cls := by
  unfold resolutionExpired
  split <;> simp

theorem tiersChanged_cls : (tiersChanged s).cls = s.cls := by
  unfold tiersChanged
  split <;> simp

theorem rdyChanged_cls (f : Fin 4) (high : Bool) : (rdyChanged f high s).cls = s.cls := by
  unfold rdyChanged
  repeat' split
  all_goals simp

theorem gateChanged_cls (high : Bool) : (gateChanged high s).cls = s.cls := by
  unfold gateChanged
  dsimp only
  repeat' split
  all_goals simp

theorem frameDone_cls (f : Fin 4) : (frameDone f s).cls = s.cls := by
  unfold frameDone
  dsimp only
  repeat' split
  all_goals simp

theorem idleExpired_cls (f : Fin 4) : (idleExpired f s).cls = s.cls := by
  unfold idleExpired
  dsimp only
  split <;> simp

theorem stallExpired_cls (f : Fin 4) : (stallExpired f s).cls = s.cls := by
  unfold stallExpired
  dsimp only
  repeat' split
  all_goals simp

theorem presenceExpired_cls (l : Link) : (presenceExpired l s).cls = s.cls := by
  unfold presenceExpired
  split <;> simp

theorem frameMalformed_cls (l : Link) (bs : List Byte) : (frameMalformed l bs s).cls = s.cls := by
  unfold frameMalformed
  repeat' split
  all_goals simp

theorem frameThrownAway_cls (l : Link) (bs : List Byte) : (frameThrownAway l bs s).cls = s.cls := by
  unfold frameThrownAway
  repeat' split
  all_goals simp

theorem frameUnknown_cls (l : Link) (code tag : Byte) : (frameUnknown l code tag s).cls = s.cls := by
  unfold frameUnknown
  dsimp only
  repeat' split
  all_goals simp

end Commands

/-! ### The requests that leave Class Control -/

/-- A block's answer leaves Class Control. -/
def ClassStays {α : Type} (block : α → State → Reply) : Prop := ∀ a s, (block a s).state.cls = s.cls

theorem serve_cls {α : Type} (l : Link) (tag : Byte) (r : Req) (p : Payload α) {block : α → State → Reply} (hb : ClassStays block)
    (s : State) : (serve l tag r p block s).cls = s.cls :=
  serve_induct (fun t => t.cls = s.cls) (fun x k y hx => by simpa using hx) l tag r p block (fun a x hx => (hb a x).trans hx) s rfl

theorem readAttention_class (l : Link) : ClassStays (readAttention l) := fun a s => by simp [readAttention, Reply.state]

theorem readLines_class : ClassStays readLines := fun a s => by
  unfold readLines
  split <;> rfl

theorem setMark_class (l : Link) : ClassStays (setMark l) := fun a s => by
  unfold setMark setMarkOn
  dsimp only
  repeat' split
  all_goals simp [refuse, Reply.state]

theorem removeMark_class (l : Link) : ClassStays (removeMark l) := fun a s => by
  unfold removeMark
  repeat' split
  all_goals simp [refuse, Reply.state]

theorem listMarks_class : ClassStays listMarks := fun a s => by
  unfold listMarks
  split <;> rfl

theorem setConditioning_class : ClassStays setConditioning := fun a s => by
  unfold setConditioning
  repeat' split
  all_goals rfl

theorem setTiming_class : ClassStays setTiming := fun a s => by
  unfold setTiming
  repeat' split
  all_goals rfl

theorem zeroKeys_class : ClassStays zeroKeys := fun a s => by
  unfold zeroKeys
  split <;> rfl

theorem beginLoad_class : ClassStays beginLoad := fun a s => by
  unfold beginLoad
  repeat' split
  all_goals rfl

theorem loadEntries_class : ClassStays loadEntries := fun a s => by
  unfold loadEntries
  repeat' split
  all_goals rfl

theorem endLoad_class : ClassStays endLoad := fun a s => by
  unfold endLoad
  repeat' split
  all_goals rfl

theorem openStaged_class : ClassStays openStaged := fun a s => by
  unfold openStaged
  repeat' split
  all_goals rfl

theorem stageDefine_class : ClassStays stageDefine := fun a s => by
  unfold stageDefine stageChange
  repeat' split
  all_goals rfl

theorem stageRemove_class : ClassStays stageRemove := fun a s => by
  unfold stageRemove stageChange
  repeat' split
  all_goals rfl

theorem commitGroup_class : ClassStays commitGroup := fun a s => by
  unfold commitGroup
  dsimp only
  repeat' split
  all_goals simp [refuse, Reply.state]

theorem abandonGroup_class : ClassStays abandonGroup := fun a s => by
  unfold abandonGroup
  split <;> rfl

theorem clearJob_class : ClassStays clearJob := fun a s => by
  unfold clearJob
  repeat' split
  all_goals rfl

theorem lookUp_class : ClassStays lookUp := fun a s => by
  unfold lookUp
  repeat' split
  all_goals rfl

theorem recess_class : ClassStays recess := fun a s => by
  unfold recess
  split
  · simp [Reply.state, recessed_eq]
  · rfl
  · rfl

theorem resume_class : ClassStays resume := fun a s => by
  unfold resume
  repeat' split
  all_goals simp [refuse, Reply.state, resumed]

theorem closeSession_class : ClassStays closeSession := fun a s => by
  unfold closeSession
  repeat' split
  all_goals simp [refuse, Reply.state, closed]

theorem readBlock_class : ClassStays readBlock := fun a s => by
  unfold readBlock
  repeat' split
  all_goals rfl

theorem releaseBlock_class : ClassStays releaseBlock := fun a s => by
  unfold releaseBlock
  repeat' split
  all_goals rfl

theorem closeBlock_class : ClassStays closeBlock := fun a s => by
  unfold closeBlock
  repeat' split
  all_goals simp [refuse, Reply.state]

theorem editLine_class : ClassStays editLine := fun a s => by
  unfold editLine
  repeat' split
  all_goals simp [refuse, Reply.state]

theorem setFeed_class : ClassStays setFeed := fun a s => by
  unfold setFeed
  repeat' split
  all_goals rfl

theorem enableFeed_class : ClassStays enableFeed := fun a s => by
  unfold enableFeed
  repeat' split
  all_goals simp [refuse, Reply.state]

theorem disableFeed_class : ClassStays disableFeed := fun a s => by
  unfold disableFeed
  repeat' split
  all_goals simp [refuse, Reply.state]

theorem testFeed_class : ClassStays testFeed := fun a s => by
  unfold testFeed
  repeat' split
  all_goals simp [refuse, Reply.state]

theorem holdFold_cls (on : Bool) (fs : List (Fin 4)) (s : State) : (fs.foldl (setHold on) s).cls = s.cls := by
  induction fs generalizing s with
  | nil => rfl
  | cons f fs ih => simpa using ih (setHold on s f)

theorem holdOrRelease_class (on : Bool) : ClassStays (holdOrRelease on) := fun a s => by
  unfold holdOrRelease
  repeat' split
  · rfl
  · rfl
  · exact holdFold_cls on _ s

/-- Every other command leaves Class Control as it was. -/
theorem exec_cls (c : Instr) (s : State) (h : reachesClass c = false) : NextMeets (fun t => t.cls = s.cls) (exec c s) := by
  cases c with
  | powerOn | rstnAssert | rstnRelease | resetPartTimeout | fetch | sbarChange | deglitchExpiry | setClass | openSession
  | setTranslationParameters => simp [reachesClass] at h
  | recoverySlotRead r => exact recoverSlot_cls s r
  | recoveryComplete => exact finishRecovery_cls s
  | keySample raw =>
    show (if s.pins.rstnHeld then s else takeSample raw.toNat s).cls = s.cls
    split <;> simp
  | holdTimerExpiry => exact holdExpiry_cls s
  | zeroingComplete => exact zeroingDone_cls s
  | blockIntervalExpiry => exact intervalExpiry_cls s
  | blockWriteStart => exact startWrite_cls s
  | reporterTransferStart => exact startReporterTransfer_cls s
  | blockWriteComplete ok => exact endWrite_cls s ok
  | blockReadComplete r => exact endRead_cls s r
  | headerClearComplete ok => exact endClear_cls s ok
  | buildComplete => exact buildDone_cls s
  | strokeHandover => exact takeNext_cls s
  | resolutionTimerExpiry => exact resolutionExpired_cls s
  | tierChangeNotice => exact tiersChanged_cls s
  | fnrdyChange f high => exact rdyChanged_cls s f high
  | fgate3Change high => exact gateChanged_cls s high
  | frameComplete f => exact frameDone_cls s f
  | idleTimerExpiry f => exact idleExpired_cls s f
  | stallTimerExpiry f => exact stallExpired_cls s f
  | presenceTimerExpiry l => exact presenceExpired_cls s l
  | frameError l bytes => exact frameMalformed_cls s l bytes
  | frameDiscarded l bytes => exact frameThrownAway_cls s l bytes
  | unknownRequest l code tag => exact frameUnknown_cls s l code tag
  | getStatus l tag p => exact serve_cls l tag _ p (block := getStatus) (fun _ _ => rfl) s
  | readAttention l tag p => exact serve_cls l tag _ p (readAttention_class l) s
  | readLines l tag p => exact serve_cls l tag _ p readLines_class s
  | setMark l tag p => exact serve_cls l tag _ p (setMark_class l) s
  | removeMark l tag p => exact serve_cls l tag _ p (removeMark_class l) s
  | listMarks l tag p => exact serve_cls l tag _ p listMarks_class s
  | readFeedHealth l tag p => exact serve_cls l tag _ p (block := readHealth l) (fun _ _ => rfl) s
  | setKeyConditioning l tag p => exact serve_cls l tag _ p setConditioning_class s
  | setChordTiming l tag p => exact serve_cls l tag _ p setTiming_class s
  | zeroKeys l tag p => exact serve_cls l tag _ p zeroKeys_class s
  | readKeyDepths l tag p => exact serve_cls l tag _ p (block := readDepths) (fun _ _ => rfl) s
  | beginMainLoad l tag p => exact serve_cls l tag _ p beginLoad_class s
  | loadEntries l tag p => exact serve_cls l tag _ p loadEntries_class s
  | endMainLoad l tag p => exact serve_cls l tag _ p endLoad_class s
  | openGroup l tag p => exact serve_cls l tag _ p openStaged_class s
  | stageDefine l tag p => exact serve_cls l tag _ p stageDefine_class s
  | stageRemove l tag p => exact serve_cls l tag _ p stageRemove_class s
  | commitGroup l tag p => exact serve_cls l tag _ p commitGroup_class s
  | abandonGroup l tag p => exact serve_cls l tag _ p abandonGroup_class s
  | clearJobTier l tag p => exact serve_cls l tag _ p clearJob_class s
  | lookUp l tag p => exact serve_cls l tag _ p lookUp_class s
  | recess l tag p => exact serve_cls l tag _ p recess_class s
  | resume l tag p => exact serve_cls l tag _ p resume_class s
  | closeSession l tag p => exact serve_cls l tag _ p closeSession_class s
  | resetPart l tag p => exact serve_cls l tag _ p (block := resetPart) (fun _ _ => rfl) s
  | readJournalBlock l tag p => exact serve_cls l tag _ p readBlock_class s
  | releaseJournalBlock l tag p => exact serve_cls l tag _ p releaseBlock_class s
  | closeJournalBlock l tag p => exact serve_cls l tag _ p closeBlock_class s
  | journalSummary l tag p => exact serve_cls l tag _ p (block := readSummary) (fun _ _ => rfl) s
  | editLine l tag p => exact serve_cls l tag _ p editLine_class s
  | setFeed l tag p => exact serve_cls l tag _ p setFeed_class s
  | enableFeed l tag p => exact serve_cls l tag _ p enableFeed_class s
  | disableFeed l tag p => exact serve_cls l tag _ p disableFeed_class s
  | testFeed l tag p => exact serve_cls l tag _ p testFeed_class s
  | holdFeeds l tag p => exact serve_cls l tag _ p (holdOrRelease_class true) s
  | releaseFeeds l tag p => exact serve_cls l tag _ p (holdOrRelease_class false) s

/-! ### The class formed, through the commands that reach it -/

/-- The sources and the class as they were. -/
theorem ClassFormed.congr {s t : State} (hs : ClassFormed s) (he : t.cls.effective = s.cls.effective) (hb : t.cls.bench = s.cls.bench)
    (hi : t.cls.sbar = s.cls.sbar) : ClassFormed t := by
  unfold ClassFormed
  rw [he, hb, hi]
  exact hs

theorem ClassFormed.of_cls {s t : State} (h : t.cls = s.cls) (hs : ClassFormed s) : ClassFormed t :=
  hs.congr (by rw [h]) (by rw [h]) (by rw [h])

/-- A class just formed from the two sources is formed, whatever stood before. -/
theorem classFormed_of_effective {t : State} (h : t.cls.effective = effectiveOf t.cls.bench t.cls.sbar) : ClassFormed t := h

theorem warmReset_formed (cause : ResetCause) (s : State) : ClassFormed (warmReset cause s) := classFormed_of_effective rfl

theorem rstnAsserted_formed (s : State) (hs : ClassFormed s) : ClassFormed (rstnAsserted s) := by
  unfold rstnAsserted
  split
  · exact hs
  · exact classFormed_of_effective rfl

theorem rstnReleased_formed (s : State) (hs : ClassFormed s) : ClassFormed (rstnReleased s) := by
  unfold rstnReleased
  split
  · exact classFormed_of_effective rfl
  · exact hs

theorem resetPartExpired_formed (s : State) (hs : ClassFormed s) : ClassFormed (resetPartExpired s) := by
  unfold resetPartExpired
  split
  · exact warmReset_formed _ s
  · exact hs

/-- A fetch leaves the class, but for the reset that the end of a Reset Part's response brings (R68). -/
theorem fetched_formed (l : Link) (n : Nat) (s : State) (hs : ClassFormed s) : ClassFormed (fetched l n s) := by
  have hsent : ∀ bs, ClassFormed (sent l bs s) := fun bs => .of_cls (by simp) hs
  unfold fetched resetIfArmed
  dsimp only
  repeat' split
  · exact hs
  · exact hsent _
  · exact warmReset_formed _ _
  · exact .of_cls (by simp) hs
  · exact hsent _
  · exact hsent _

theorem takeSbar_formed (s : State) : ClassFormed (takeSbar s) := classFormed_of_effective (by simp)

theorem followSbar_formed (s : State) (hs : ClassFormed s) : ClassFormed (followSbar s) := by
  unfold followSbar
  repeat' split
  · exact hs
  · exact takeSbar_formed s
  · exact hs

theorem sbarChanged_formed (high : Bool) (s : State) (hs : ClassFormed s) : ClassFormed (sbarChanged high s) := by
  unfold sbarChanged
  dsimp only
  repeat' split
  · exact hs
  · exact hs
  · exact followSbar_formed _ hs

theorem deglitchExpired_formed (s : State) (hs : ClassFormed s) : ClassFormed (deglitchExpired s) := by
  unfold deglitchExpired
  split
  · exact takeSbar_formed s
  · exact hs

theorem serve_formed {α : Type} (l : Link) (tag : Byte) (r : Req) (p : Payload α) {block : α → State → Reply}
    (hb : ∀ a s, ClassFormed s → ClassFormed (block a s).state) (s : State) (hs : ClassFormed s) :
    ClassFormed (serve l tag r p block s) :=
  serve_induct ClassFormed (fun _ _ _ hx => .of_cls (by simp) hx) l tag r p block hb s hs

theorem classSet_formed (c : Cls) (s : State) : ClassFormed (classSet c s) := classFormed_of_effective (by simp)

theorem setClass_formed (n : Nat) (s : State) (hs : ClassFormed s) : ClassFormed (setClass n s).state := by
  unfold setClass
  repeat' split
  · exact hs
  · exact hs
  · exact hs
  · exact classSet_formed _ s

/-- The opening forms the class from an OPEN bench class (R153). -/
theorem opened_formed (s : State) : ClassFormed (opened s) := classFormed_of_effective (by simp [opened, openClass])

theorem openSession_formed (a : Unit) (s : State) (hs : ClassFormed s) : ClassFormed (openSession a s).state := by
  unfold openSession
  split
  · exact hs
  · exact opened_formed s

/-- Set Translation Parameters reaches the deglitch setting alone of Class Control (R207). -/
theorem setParams_formed (a : ParamArgs) (s : State) (hs : ClassFormed s) : ClassFormed (setParams a s).state := hs.congr rfl rfl rfl

theorem NextMeets.mono {P Q : State → Prop} {o : Host.Outcome State Fault Refusal} (h : NextMeets P o) (hpq : ∀ t, P t → Q t) :
    NextMeets Q o := by
  cases o with
  | next t => exact hpq t h
  | _ => exact h

/-- A command that reaches Class Control forms the class or leaves its sources; the others leave it whole. -/
theorem exec_formed (c : Instr) (s : State) (hs : ClassFormed s) : NextMeets ClassFormed (exec c s) := by
  by_cases hreach : reachesClass c = true
  · cases c with
    | powerOn => exact classFormed_of_effective rfl
    | rstnAssert => exact rstnAsserted_formed s hs
    | rstnRelease => exact rstnReleased_formed s hs
    | resetPartTimeout => exact resetPartExpired_formed s hs
    | fetch l n => exact fetched_formed l n s hs
    | sbarChange high => exact sbarChanged_formed high s hs
    | deglitchExpiry => exact deglitchExpired_formed s hs
    | setClass l tag p => exact serve_formed l tag _ p setClass_formed s hs
    | openSession l tag p => exact serve_formed l tag _ p openSession_formed s hs
    | setTranslationParameters l tag p => exact serve_formed l tag _ p setParams_formed s hs
    | _ => simp [reachesClass] at hreach
  · exact (exec_cls c s (by simpa using hreach)).mono fun _ ht => hs.of_cls ht

/-- A tick leaves the class, and each command keeps it formed. -/
theorem step_formed {s t : State} (hs : ClassFormed s) (e : step s = .next t) : ClassFormed t := by
  unfold step at e
  split at e
  · cases e
    exact hs
  · next c rest _ =>
    have h := exec_formed c { s with pending := rest } hs
    rw [e] at h
    exact h

/-- Under the sidebar the class is never OPEN (R148). -/
theorem Cls.max_sidebar (c : Cls) : Cls.max c .sidebar = .sidebar ∨ Cls.max c .sidebar = .chambers := by
  cases c with
  | opn => exact .inl rfl
  | sidebar => exact .inl rfl
  | chambers => exact .inr rfl

theorem Cls.max_opn (c : Cls) : Cls.max c .opn = c := by cases c <;> rfl

/-- Settles O40: every step keeps the class formed, and what it is with the indication asserted and deasserted follows. -/
theorem effectiveClassStaysFormed : Obligations.EffectiveClassStaysFormed := by
  intro s t hs e
  have ht : ClassFormed t := step_formed hs e
  refine ⟨ht, fun hi => ?_, fun hi => ?_⟩
  · rw [ht, hi]
    exact Cls.max_sidebar _
  · rw [ht, hi]
    exact Cls.max_opn _

end Sys2Proof.Machine

/-! No feed sends a text its audience may not see (O46): few commands reach the feeds, and each of them keeps R156; the others leave every feed's
context. -/

namespace Sys2Proof.Machine

/-- The commands that can change a feed's context: the resets and the fetch that can bring one (R68, R185), the Translator's (R163), the feeds'
own, Edit Line (R170), and the session requests after which the feeds choose (R163, R184). -/
def reachesFeeds : Instr → Bool
  | .powerOn | .rstnAssert | .rstnRelease | .resetPartTimeout | .fetch _ _ => true
  | .strokeHandover | .resolutionTimerExpiry | .tierChangeNotice => true
  | .fnrdyChange _ _ | .fgate3Change _ | .frameComplete _ | .idleTimerExpiry _ | .stallTimerExpiry _ => true
  | .editLine _ _ _ | .openSession _ _ _ | .recess _ _ _ | .closeSession _ _ _ => true
  | .setFeed _ _ _ | .enableFeed _ _ _ | .disableFeed _ _ _ | .testFeed _ _ _ | .holdFeeds _ _ _ | .releaseFeeds _ _ _ => true
  | _ => false

/-! ### The commands that leave the feeds -/

section Commands
variable (s : State)

theorem holdExpiry_feeds : (holdExpiry s).feeds = s.feeds := by
  unfold holdExpiry
  repeat' split
  all_goals simp

theorem zeroingDone_feeds : (zeroingDone s).feeds = s.feeds := by
  unfold zeroingDone
  repeat' split
  all_goals simp

theorem intervalExpiry_feeds : (intervalExpiry s).feeds = s.feeds := by
  unfold intervalExpiry
  split <;> simp

theorem startWrite_feeds : (startWrite s).feeds = s.feeds := by
  unfold startWrite
  repeat' split
  all_goals rfl

theorem startReporterTransfer_feeds : (startReporterTransfer s).feeds = s.feeds := by
  unfold startReporterTransfer
  repeat' split
  all_goals rfl

theorem endWrite_feeds (ok : Bool) : (endWrite ok s).feeds = s.feeds := by
  rcases endWrite_cases ok s with e | ⟨i, slot, b, n, -, -, e⟩ <;> rw [e]
  split <;> simp [writeStored, writeFailed]

theorem endRead_feeds (r : SlotRead) : (endRead r s).feeds = s.feeds := by
  unfold endRead
  repeat' split
  all_goals simp

theorem endClear_feeds (ok : Bool) : (endClear ok s).feeds = s.feeds := by
  unfold endClear
  repeat' split
  all_goals simp [clearDone, clearFailed]

theorem recoverSlot_feeds (r : RecoveryRead) : (recoverSlot r s).feeds = s.feeds := by
  unfold recoverSlot
  repeat' split
  all_goals rfl

theorem finishRecovery_feeds : (finishRecovery s).feeds = s.feeds := by
  unfold finishRecovery
  split <;> simp

theorem buildDone_feeds : (buildDone s).feeds = s.feeds := by
  unfold buildDone
  split <;> simp

theorem sbarChanged_feeds (high : Bool) : (sbarChanged high s).feeds = s.feeds := by
  unfold sbarChanged
  dsimp only
  repeat' split
  all_goals simp

theorem deglitchExpired_feeds : (deglitchExpired s).feeds = s.feeds := by
  unfold deglitchExpired
  split <;> simp

theorem presenceExpired_feeds (l : Link) : (presenceExpired l s).feeds = s.feeds := by
  unfold presenceExpired
  split <;> simp

theorem frameMalformed_feeds (l : Link) (bs : List Byte) : (frameMalformed l bs s).feeds = s.feeds := by
  unfold frameMalformed
  repeat' split
  all_goals simp

theorem frameThrownAway_feeds (l : Link) (bs : List Byte) : (frameThrownAway l bs s).feeds = s.feeds := by
  unfold frameThrownAway
  repeat' split
  all_goals simp

theorem frameUnknown_feeds (l : Link) (code tag : Byte) : (frameUnknown l code tag s).feeds = s.feeds := by
  unfold frameUnknown
  dsimp only
  repeat' split
  all_goals simp

end Commands

/-! ### The requests that leave the feeds -/

/-- A block's answer leaves the feeds. -/
def FeedsStay {α : Type} (block : α → State → Reply) : Prop := ∀ a s, (block a s).state.feeds = s.feeds

theorem serve_feeds {α : Type} (l : Link) (tag : Byte) (r : Req) (p : Payload α) {block : α → State → Reply} (hb : FeedsStay block)
    (s : State) : (serve l tag r p block s).feeds = s.feeds :=
  serve_induct (fun t => t.feeds = s.feeds) (fun x k y hx => by simpa using hx) l tag r p block (fun a x hx => (hb a x).trans hx) s rfl

theorem readAttention_feeds (l : Link) : FeedsStay (readAttention l) := fun a s => by simp [readAttention, Reply.state]

theorem readLines_feeds : FeedsStay readLines := fun a s => by
  unfold readLines
  split <;> rfl

theorem setMark_feeds (l : Link) : FeedsStay (setMark l) := fun a s => by
  unfold setMark setMarkOn
  dsimp only
  repeat' split
  all_goals simp [refuse, Reply.state]

theorem removeMark_feeds (l : Link) : FeedsStay (removeMark l) := fun a s => by
  unfold removeMark
  repeat' split
  all_goals simp [refuse, Reply.state]

theorem listMarks_feeds : FeedsStay listMarks := fun a s => by
  unfold listMarks
  split <;> rfl

theorem setConditioning_feeds : FeedsStay setConditioning := fun a s => by
  unfold setConditioning
  repeat' split
  all_goals rfl

theorem setTiming_feeds : FeedsStay setTiming := fun a s => by
  unfold setTiming
  repeat' split
  all_goals rfl

theorem zeroKeys_feeds : FeedsStay zeroKeys := fun a s => by
  unfold zeroKeys
  split <;> rfl

theorem beginLoad_feeds : FeedsStay beginLoad := fun a s => by
  unfold beginLoad
  repeat' split
  all_goals rfl

theorem loadEntries_feeds : FeedsStay loadEntries := fun a s => by
  unfold loadEntries
  repeat' split
  all_goals rfl

theorem endLoad_feeds : FeedsStay endLoad := fun a s => by
  unfold endLoad
  repeat' split
  all_goals rfl

theorem openStaged_feeds : FeedsStay openStaged := fun a s => by
  unfold openStaged
  repeat' split
  all_goals rfl

theorem stageDefine_feeds : FeedsStay stageDefine := fun a s => by
  unfold stageDefine stageChange
  repeat' split
  all_goals rfl

theorem stageRemove_feeds : FeedsStay stageRemove := fun a s => by
  unfold stageRemove stageChange
  repeat' split
  all_goals rfl

theorem commitGroup_feeds : FeedsStay commitGroup := fun a s => by
  unfold commitGroup
  dsimp only
  repeat' split
  all_goals simp [refuse, Reply.state]

theorem abandonGroup_feeds : FeedsStay abandonGroup := fun a s => by
  unfold abandonGroup
  split <;> rfl

theorem clearJob_feeds : FeedsStay clearJob := fun a s => by
  unfold clearJob
  repeat' split
  all_goals rfl

theorem lookUp_feeds : FeedsStay lookUp := fun a s => by
  unfold lookUp
  repeat' split
  all_goals rfl

theorem resume_feeds : FeedsStay resume := fun a s => by
  unfold resume
  repeat' split
  all_goals simp [refuse, Reply.state, resumed]

theorem readBlock_feeds : FeedsStay readBlock := fun a s => by
  unfold readBlock
  repeat' split
  all_goals rfl

theorem releaseBlock_feeds : FeedsStay releaseBlock := fun a s => by
  unfold releaseBlock
  repeat' split
  all_goals rfl

theorem closeBlock_feeds : FeedsStay closeBlock := fun a s => by
  unfold closeBlock
  repeat' split
  all_goals simp [refuse, Reply.state]

theorem setClass_feeds : FeedsStay setClass := fun a s => by
  unfold setClass
  repeat' split
  all_goals simp [refuse, Reply.state]

/-- Every other command leaves the feeds as they were. -/
theorem exec_feeds (c : Instr) (s : State) (h : reachesFeeds c = false) : NextMeets (fun t => t.feeds = s.feeds) (exec c s) := by
  cases c with
  | recoverySlotRead r => exact recoverSlot_feeds s r
  | recoveryComplete => exact finishRecovery_feeds s
  | keySample raw =>
    show (if s.pins.rstnHeld then s else takeSample raw.toNat s).feeds = s.feeds
    split <;> simp
  | holdTimerExpiry => exact holdExpiry_feeds s
  | zeroingComplete => exact zeroingDone_feeds s
  | blockIntervalExpiry => exact intervalExpiry_feeds s
  | blockWriteStart => exact startWrite_feeds s
  | reporterTransferStart => exact startReporterTransfer_feeds s
  | blockWriteComplete ok => exact endWrite_feeds s ok
  | blockReadComplete r => exact endRead_feeds s r
  | headerClearComplete ok => exact endClear_feeds s ok
  | buildComplete => exact buildDone_feeds s
  | sbarChange high => exact sbarChanged_feeds s high
  | deglitchExpiry => exact deglitchExpired_feeds s
  | presenceTimerExpiry l => exact presenceExpired_feeds s l
  | frameError l bytes => exact frameMalformed_feeds s l bytes
  | frameDiscarded l bytes => exact frameThrownAway_feeds s l bytes
  | unknownRequest l code tag => exact frameUnknown_feeds s l code tag
  | getStatus l tag p => exact serve_feeds l tag _ p (block := getStatus) (fun _ _ => rfl) s
  | readAttention l tag p => exact serve_feeds l tag _ p (readAttention_feeds l) s
  | readLines l tag p => exact serve_feeds l tag _ p readLines_feeds s
  | setMark l tag p => exact serve_feeds l tag _ p (setMark_feeds l) s
  | removeMark l tag p => exact serve_feeds l tag _ p (removeMark_feeds l) s
  | listMarks l tag p => exact serve_feeds l tag _ p listMarks_feeds s
  | readFeedHealth l tag p => exact serve_feeds l tag _ p (block := readHealth l) (fun _ _ => rfl) s
  | setTranslationParameters l tag p => exact serve_feeds l tag _ p (block := setParams) (fun _ _ => rfl) s
  | setKeyConditioning l tag p => exact serve_feeds l tag _ p setConditioning_feeds s
  | setChordTiming l tag p => exact serve_feeds l tag _ p setTiming_feeds s
  | zeroKeys l tag p => exact serve_feeds l tag _ p zeroKeys_feeds s
  | readKeyDepths l tag p => exact serve_feeds l tag _ p (block := readDepths) (fun _ _ => rfl) s
  | beginMainLoad l tag p => exact serve_feeds l tag _ p beginLoad_feeds s
  | loadEntries l tag p => exact serve_feeds l tag _ p loadEntries_feeds s
  | endMainLoad l tag p => exact serve_feeds l tag _ p endLoad_feeds s
  | openGroup l tag p => exact serve_feeds l tag _ p openStaged_feeds s
  | stageDefine l tag p => exact serve_feeds l tag _ p stageDefine_feeds s
  | stageRemove l tag p => exact serve_feeds l tag _ p stageRemove_feeds s
  | commitGroup l tag p => exact serve_feeds l tag _ p commitGroup_feeds s
  | abandonGroup l tag p => exact serve_feeds l tag _ p abandonGroup_feeds s
  | clearJobTier l tag p => exact serve_feeds l tag _ p clearJob_feeds s
  | lookUp l tag p => exact serve_feeds l tag _ p lookUp_feeds s
  | resume l tag p => exact serve_feeds l tag _ p resume_feeds s
  | resetPart l tag p => exact serve_feeds l tag _ p (block := resetPart) (fun _ _ => rfl) s
  | readJournalBlock l tag p => exact serve_feeds l tag _ p readBlock_feeds s
  | releaseJournalBlock l tag p => exact serve_feeds l tag _ p releaseBlock_feeds s
  | closeJournalBlock l tag p => exact serve_feeds l tag _ p closeBlock_feeds s
  | journalSummary l tag p => exact serve_feeds l tag _ p (block := readSummary) (fun _ _ => rfl) s
  | setClass l tag p => exact serve_feeds l tag _ p setClass_feeds s
  | _ => simp [reachesFeeds] at h

/-! ### The commands that reach the feeds -/

/-- A context after a reset is OFF with nothing in flight, so no text is (R185). -/
theorem atReset_leakFree (a : Audience) (r : Rate) (b i n : Nat) : LeakFree (Feed.atReset a r b i n) :=
  ⟨fun _ => rfl, fun _ h => nomatch h⟩

theorem coldReset_noLeak (s : State) : NoLeak (coldReset s) := fun f => by
  have h : feed (coldReset s) f = Feed.cold := quad_get_const _ f
  rw [h]
  exact atReset_leakFree _ _ _ _ _

theorem warmReset_noLeak (cause : ResetCause) (s : State) : NoLeak (warmReset cause s) := fun f => by
  have h : feed (warmReset cause s) f = ((cutTransfer s).feeds.ctx.get f).atWarm := quad_get_map _ _ f
  rw [h]
  exact atReset_leakFree _ _ _ _ _

theorem rstnAsserted_noLeak (s : State) (hs : NoLeak s) : NoLeak (rstnAsserted s) := by
  unfold rstnAsserted
  split
  · exact hs
  · exact warmReset_noLeak .rstn s

theorem rstnReleased_noLeak (s : State) (hs : NoLeak s) : NoLeak (rstnReleased s) := by
  unfold rstnReleased
  split
  · exact hs
  · exact hs

theorem resetPartExpired_noLeak (s : State) (hs : NoLeak s) : NoLeak (resetPartExpired s) := by
  unfold resetPartExpired
  split
  · exact warmReset_noLeak _ s
  · exact hs

/-- A fetch leaves the feeds, but for the reset that the end of a Reset Part's response brings (R68). -/
theorem fetched_noLeak (l : Link) (n : Nat) (s : State) (hs : NoLeak s) : NoLeak (fetched l n s) := by
  have hsent : ∀ bs, NoLeak (sent l bs s) := fun bs => noLeak_of_feeds (by simp) hs
  unfold fetched resetIfArmed
  dsimp only
  repeat' split
  · exact hs
  · exact hsent _
  · exact warmReset_noLeak _ _
  · exact noLeak_of_feeds (by simp) hs
  · exact hsent _
  · exact hsent _

theorem takeNext_noLeak (s : State) (hs : NoLeak s) : NoLeak (takeNext s) := by
  unfold takeNext
  split
  · exact hs
  · exact chooseAll_noLeak _ (takeStroke_noLeak _ _ hs)

theorem resolutionExpired_noLeak (s : State) (hs : NoLeak s) : NoLeak (resolutionExpired s) := by
  unfold resolutionExpired
  split
  · exact chooseAll_noLeak _ (noLeak_of_feeds (s := flushPass s) (by simp) (pass_noLeak _ _ _ _ hs))
  · exact hs

theorem tiersChanged_noLeak (s : State) (hs : NoLeak s) : NoLeak (tiersChanged s) := by
  unfold tiersChanged
  split
  · exact hs
  · exact chooseAll_noLeak _ (setTimer_noLeak _ _ (pass_noLeak _ _ _ _ hs))

theorem rdyChanged_noLeak (f : Fin 4) (high : Bool) (s : State) (hs : NoLeak s) : NoLeak (rdyChanged f high s) := by
  have hpin : NoLeak (setRdy f high s) := hs
  have hseen : NoLeak (setFeedCtx f (feed (setRdy f high s) f).seeReady (setRdy f high s)) :=
    setFeedCtx_noLeak _ _ _ (LeakFree.congr (hpin f) rfl rfl rfl) hpin
  unfold rdyChanged rdyAsserted
  dsimp only
  repeat' split
  · exact hs
  · exact choose_noLeak _ _ (refreshHealth_noLeak _ _ (enterByHold_noLeak _ _ hseen))
  · exact choose_noLeak _ _ (refreshHealth_noLeak _ _ hseen)
  · exact hpin

theorem gateChanged_noLeak (high : Bool) (s : State) (hs : NoLeak s) : NoLeak (gateChanged high s) := by
  unfold gateChanged
  dsimp only
  repeat' split
  · exact hs
  · exact hs
  · exact holdChanged_noLeak 3 _ hs
  · exact holdChanged_noLeak 3 _ (noLeak_of_feeds
      (s := setGate (!high) { s with pins := { s.pins with fgate3 := high } }) (by simp) hs)

/-- A context with no frame in flight holds to R156. -/
theorem leakFree_of_flight_none {c : Feed} (h : c.flight = none) : LeakFree c := ⟨fun _ => h, fun fr e => by simp [h] at e⟩

theorem frameDone_noLeak (f : Fin 4) (s : State) (hs : NoLeak s) : NoLeak (frameDone f s) := by
  have hgone : ∀ c : Feed, c.flight = none → NoLeak (setFeedCtx f c s) := fun c h =>
    setFeedCtx_noLeak _ _ _ (leakFree_of_flight_none h) hs
  unfold frameDone
  dsimp only
  repeat' split
  · exact hs
  · exact choose_noLeak _ _ (hgone _ rfl)
  · exact choose_noLeak _ _ (hgone _ rfl)
  · exact endTest_noLeak _ _ _ (hgone _ rfl)
  · exact becomeOff_noLeak _ _ (hgone _ rfl)
  · exact endTest_noLeak _ _ _ (hgone _ rfl)
  · exact choose_noLeak _ _ (hgone _ rfl)
  · exact hgone _ rfl
  · exact hgone _ rfl

theorem idleExpired_noLeak (f : Fin 4) (s : State) (hs : NoLeak s) : NoLeak (idleExpired f s) := by
  unfold idleExpired
  dsimp only
  split
  · exact choose_noLeak _ _ (setFeedCtx_noLeak _ _ _ (LeakFree.congr (hs f) rfl rfl rfl) hs)
  · exact hs

theorem stallExpired_noLeak (f : Fin 4) (s : State) (hs : NoLeak s) : NoLeak (stallExpired f s) := by
  have hstalled : NoLeak (refreshHealth f (setFeedCtx f
      { feed s f with state := .stalled, stallTimer := none, idleTimer := none } s)) :=
    refreshHealth_noLeak _ _ (setFeedCtx_noLeak _ _ _ (LeakFree.withState (c := feed s f) (hs f) (by simp) rfl rfl) hs)
  unfold stallExpired
  dsimp only
  repeat' split
  · exact hstalled
  · exact hstalled
  · exact endTest_noLeak _ _ _ hs
  · exact hs
  · exact hs

theorem applyEdit_noLeak (l : Line) (text : List Byte) (s : State) (hs : NoLeak s) : NoLeak (applyEdit l text s) := by
  have htold := editNotice_noLeak l.serial _
    (setRecords_noLeak (updateLine l.serial (fun x => x.edit text) s.lines.records) s hs)
  unfold applyEdit
  dsimp only
  refine chooseAll_noLeak _ (noLeak_of_feeds ?_ htold)
  split <;> simp

theorem editLine_noLeak (a : EditLineArgs) (s : State) (hs : NoLeak s) : NoLeak (editLine a s).state := by
  unfold editLine
  repeat' split
  · exact hs
  · exact hs
  · exact hs
  · exact hs
  · exact applyEdit_noLeak _ _ s hs

theorem opened_noLeak (s : State) (hs : NoLeak s) : NoLeak (opened s) := by
  have htaken := takeAllHanded_noLeak s.trans.handed.length s hs
  unfold opened emptyTranscript
  dsimp only
  exact chooseAll_noLeak _ (feedsAtOpen_noLeak _ (noLeak_of_feeds (by simp [newSession]) htaken))

theorem openSession_noLeak (a : Unit) (s : State) (hs : NoLeak s) : NoLeak (openSession a s).state := by
  unfold openSession
  split
  · exact hs
  · exact opened_noLeak s hs

/-- The flush and the choices that follow a Recess and a Close Session (R115, R163). -/
theorem departed_noLeak (c : Bool) (s : State) (hs : NoLeak s) : NoLeak (departed c s) :=
  chooseAll_noLeak _ (leaveLive_noLeak _ _ (noLeak_of_feeds (by simp) hs))

theorem recess_noLeak (a : Unit) (s : State) (hs : NoLeak s) : NoLeak (recess a s).state := by
  unfold recess
  split
  · rw [recessed_eq]
    exact departed_noLeak _ _ (noLeak_of_feeds (s := s) (by simp [recessEntered, recessSession]) hs)
  · exact hs
  · exact hs

theorem closed_noLeak (s : State) (hs : NoLeak s) : NoLeak (closed s) := by
  rw [closed_eq]
  refine noLeak_of_feeds (s := closeDeparted s) (by simp) ?_
  exact departed_noLeak _ _ (noLeak_of_feeds (s := s) (by simp [closeEntered]) hs)

theorem closeSession_noLeak (a : Unit) (s : State) (hs : NoLeak s) : NoLeak (closeSession a s).state := by
  unfold closeSession
  repeat' split
  · exact closed_noLeak s hs
  · exact hs
  · exact closed_noLeak s hs
  · exact hs
  · exact hs

/-! ### The feeds' requests -/

/-- A feed is configured only in OFF, where nothing is in flight (R159). -/
theorem setFeed_noLeak (a : SetFeedArgs) (s : State) (hs : NoLeak s) : NoLeak (setFeed a s).state := by
  unfold setFeed
  dsimp only
  repeat' split
  · exact hs
  · next f _ _ _ _ _ hoff =>
    exact setFeedCtx_noLeak _ _ _ (leakFree_of_flight_none ((hs f).1 (by simpa using hoff))) hs
  · exact hs

/-- A feed is enabled only in OFF, where nothing is in flight (R160). -/
theorem enabled_noLeak (f : Fin 4) (s : State) (hoff : (feed s f).state = .off) (hs : NoLeak s) : NoLeak (enabled f s) :=
  refreshHealth_noLeak _ _ (setFeedCtx_noLeak _ _ _ (leakFree_of_flight_none ((hs f).1 hoff)) hs)

theorem enableFeed_noLeak (n : Nat) (s : State) (hs : NoLeak s) : NoLeak (enableFeed n s).state := by
  unfold enableFeed
  repeat' split
  · exact hs
  · next hoff => exact choose_noLeak _ _ (enabled_noLeak _ s hoff hs)
  · exact hs
  · exact hs
  · exact hs

theorem disabled_noLeak (f : Fin 4) (s : State) (hs : NoLeak s) : NoLeak (disabled f s) := by
  unfold disabled
  repeat' split
  · exact refreshHealth_noLeak _ _ (setFeedCtx_noLeak _ _ _ (LeakFree.withState (c := feed s f) (hs f) (by simp) rfl rfl) hs)
  · exact endTest_noLeak _ _ _ hs
  · exact becomeOff_noLeak _ _ hs

theorem disableFeed_noLeak (n : Nat) (s : State) (hs : NoLeak s) : NoLeak (disableFeed n s).state := by
  unfold disableFeed
  repeat' split
  · exact hs
  · exact hs
  · exact disabled_noLeak _ s hs

theorem testFeed_noLeak (a : TestFeedArgs) (s : State) (hs : NoLeak s) : NoLeak (testFeed a s).state := by
  unfold testFeed
  repeat' split
  · exact hs
  · exact hs
  · next f _ hoff =>
    exact choose_noLeak _ _ (refreshHealth_noLeak _ _ (setFeedCtx_noLeak _ _ _
      (leakFree_of_flight_none ((hs f).1 (by simpa using hoff))) hs))

theorem setHold_noLeak (on : Bool) (s : State) (f : Fin 4) (hs : NoLeak s) : NoLeak (setHold on s f) := by
  unfold setHold
  split
  · exact hs
  · exact holdChanged_noLeak f _ (setFeedCtx_noLeak _ _ _ (LeakFree.congr (hs f) rfl rfl rfl) hs)

theorem holdOrRelease_noLeak (on : Bool) (set : Byte) (s : State) (hs : NoLeak s) : NoLeak (holdOrRelease on set s).state := by
  unfold holdOrRelease
  repeat' split
  · exact hs
  · exact hs
  · exact foldl_noLeak _ (setHold_noLeak on) _ s hs

/-! ### Every command -/

theorem serve_noLeak {α : Type} (l : Link) (tag : Byte) (r : Req) (p : Payload α) {block : α → State → Reply}
    (hb : ∀ a s, NoLeak s → NoLeak (block a s).state) (s : State) (hs : NoLeak s) : NoLeak (serve l tag r p block s) :=
  serve_induct NoLeak (fun _ _ _ hx => noLeak_of_feeds (by simp) hx) l tag r p block hb s hs

theorem exec_noLeak (c : Instr) (s : State) (hs : NoLeak s) : NextMeets NoLeak (exec c s) := by
  by_cases hreach : reachesFeeds c = true
  · cases c with
    | powerOn => exact coldReset_noLeak s
    | rstnAssert => exact rstnAsserted_noLeak s hs
    | rstnRelease => exact rstnReleased_noLeak s hs
    | resetPartTimeout => exact resetPartExpired_noLeak s hs
    | fetch l n => exact fetched_noLeak l n s hs
    | strokeHandover => exact takeNext_noLeak s hs
    | resolutionTimerExpiry => exact resolutionExpired_noLeak s hs
    | tierChangeNotice => exact tiersChanged_noLeak s hs
    | fnrdyChange f high => exact rdyChanged_noLeak f high s hs
    | fgate3Change high => exact gateChanged_noLeak high s hs
    | frameComplete f => exact frameDone_noLeak f s hs
    | idleTimerExpiry f => exact idleExpired_noLeak f s hs
    | stallTimerExpiry f => exact stallExpired_noLeak f s hs
    | editLine l tag p => exact serve_noLeak l tag _ p editLine_noLeak s hs
    | openSession l tag p => exact serve_noLeak l tag _ p openSession_noLeak s hs
    | recess l tag p => exact serve_noLeak l tag _ p recess_noLeak s hs
    | closeSession l tag p => exact serve_noLeak l tag _ p closeSession_noLeak s hs
    | setFeed l tag p => exact serve_noLeak l tag _ p setFeed_noLeak s hs
    | enableFeed l tag p => exact serve_noLeak l tag _ p enableFeed_noLeak s hs
    | disableFeed l tag p => exact serve_noLeak l tag _ p disableFeed_noLeak s hs
    | testFeed l tag p => exact serve_noLeak l tag _ p testFeed_noLeak s hs
    | holdFeeds l tag p => exact serve_noLeak l tag _ p (holdOrRelease_noLeak true) s hs
    | releaseFeeds l tag p => exact serve_noLeak l tag _ p (holdOrRelease_noLeak false) s hs
    | _ => simp [reachesFeeds] at hreach
  · exact (exec_feeds c s (by simpa using hreach)).mono fun _ ht => noLeak_of_feeds ht hs

/-- Settles O46: a tick leaves the feeds, and each command keeps R156. -/
theorem noRestrictedTextLeavesAFeed : Obligations.NoRestrictedTextLeavesAFeed := by
  intro s t hs e
  unfold step at e
  split at e
  · cases e
    exact hs
  · next c rest _ =>
    have h := exec_noLeak c { s with pending := rest } hs
    rw [e] at h
    exact h

end Sys2Proof.Machine

/-! Read Attention (O52). -/

namespace Sys2Proof.Machine

/-- Nothing but the two links has changed. -/
def LinksOnly (s t : State) : Prop := t = { s with reporter := t.reporter, bench := t.bench }

theorem LinksOnly.refl (s : State) : LinksOnly s s := rfl

theorem LinksOnly.setLink {s t : State} (h : LinksOnly s t) (l : Link) (k : LinkState) : LinksOnly s (t.setLink l k) := by
  cases l <;> · unfold LinksOnly; rw [h]; rfl

theorem touchPresence_linksOnly (l : Link) (s : State) : LinksOnly s (touchPresence l s) := by
  have hwritten : LinksOnly s (writeOver l s) := (LinksOnly.refl s).setLink l _
  unfold touchPresence
  dsimp only
  repeat' split
  · exact hwritten
  · exact hwritten.setLink l _
  · exact (hwritten.setLink l _).setLink (otherLink l) _

/-- Settles O52: the answer is made from the link as the frame's arrival leaves it, and only its own link is written. -/
theorem readAttentionEmptiesOwnLatch : Obligations.ReadAttentionEmptiesOwnLatch := by
  intro l tag s ht
  have hserved : exec (.readAttention l tag (.fields ())) s = .next (answered l .readAttention tag .ok
      (attentionPayload ((touchPresence l s).link l) (touchPresence l s)) (readLatch l (touchPresence l s))) :=
    congrArg _ (serve_takes _ _ _ _ _ s ht (by cases l <;> rfl))
  refine ⟨_, hserved, ?_, fun f => ?_, ?_, ?_, ?_⟩
  · simp [answered, readLatch]
  · simp [answered, readLatch, feed]
  · simp [answered, attentionPayload, flagWord, Req.code]
  · simp [answered, readLatch]
  · exact ((touchPresence_linksOnly l s).setLink l _).setLink l _

end Sys2Proof.Machine

/-! A frame's start, a choice and a change of hold, each told of the feed's own context (R162 to R166, R172 to R176); the pins FnRDY and FGATE3
(O41). -/

namespace Sys2Proof.Machine

/-! ### The start of a frame -/

section Start
variable (f : Fin 4) (s : State)

theorem feed_setRecords (rs : List Line) (g : Fin 4) : feed (setRecords rs s) g = feed s g := rfl

/-- The removal of records can lift a feed's low water, and changes nothing else of its context (R167). -/
theorem feed_removeDone (g : Fin 4) : ∃ low, feed (removeDone s) g = { feed s g with lowWater := low } :=
  ⟨_, feed_liftLowWaters g _⟩

theorem feed_start_update (l : Line) (queued : Bool) : feed (startFrame f (.update l queued) s) f =
    { feed s f with
      edits := if queued then (feed s f).edits.drop 1 else (feed s f).edits
      flight := some (textFrame true l) } := by
  simp [startFrame, writeSent, feed_setRecords]

/-- The context once a LINE frame has started, but for its health code: an announced run ends with a line beyond it (R166). -/
def Feed.lineStarted (c : Feed) (l : Line) : Feed :=
  { c with
    withheld := if c.announced < l.serial then false else c.withheld
    flight := some (textFrame false l) }

theorem feed_start_line (l : Line) : feed (startFrame f (.line l) s) f =
    { (feed s f).lineStarted l with health := healthOf ((feed s f).lineStarted l) } := by
  simp [startFrame, writeSent, feed_refreshHealth, feed_setRecords, Feed.lineStarted]

theorem feed_start_withdraw (l : Line) : ∃ low, feed (startFrame f (.withdraw l) s) f =
    { feed s f with flight := some (.withdraw l.serial l.page l.line), lowWater := low } := by
  obtain ⟨low, h⟩ := feed_removeDone (setRecords (updateLine l.serial
    (fun x => { x with withdrawSent := x.withdrawSent.set f true }) s.lines.records)
    (setFlight f (.withdraw l.serial l.page l.line) s)) f
  exact ⟨low, h.trans (by simp [feed_setRecords, setFlight])⟩

/-- The context once a WITHHELD frame has started, but for its health code (R166). -/
def Feed.withheldStarted (c : Feed) (l : Line) : Feed :=
  { c with
    announced := l.serial
    withheld := true
    flight := some (.withheld l.serial l.page l.line l.cls) }

theorem feed_start_withheld (l : Line) : feed (startFrame f (.withheld l) s) f =
    { (feed s f).withheldStarted l with health := healthOf ((feed s f).withheldStarted l) } := by
  simp [startFrame, feed_refreshHealth, Feed.withheldStarted]

theorem start_idle (held : Bool) (h : decide ((feed s f).state = .held) = held) : startFrame f .idle s = setFeedCtx f { feed s f with
    flight := some (.idle held (feed s f).health s.session.number s.lines.counter) } s := by
  subst h
  rfl

theorem start_test (r : TestRec) (h : (feed s f).test = some r) : startFrame f .test s = setFeedCtx f { feed s f with
    test := some { r with sent := r.sent + 1, seq := (testBytes 64 r.seq).2 }
    flight := some (.test (testBytes 64 r.seq).1) } s := by
  simp [startFrame, h]

/-- The start of a frame leaves the stall timer (R172). -/
theorem startFrame_stallTimer (d : Due) : (feed (startFrame f d s) f).stallTimer = (feed s f).stallTimer := by
  cases d with
  | update l queued => rw [feed_start_update]
  | line l => rw [feed_start_line]; rfl
  | withdraw l =>
    obtain ⟨low, h⟩ := feed_start_withdraw f s l
    rw [h]
  | withheld l => rw [feed_start_withheld]; rfl
  | idle => rw [start_idle f s _ rfl, feed_setFeedCtx_self]
  | test =>
    cases h : (feed s f).test with
    | none => simp [startFrame, h]
    | some r => rw [start_test f s r h, feed_setFeedCtx_self]

theorem actOn_ready (d : Due) (h : s.pins.rdy.get f = true) : actOn f d s = startFrame f d s := if_pos h

theorem actOn_waiting (d : Due) (h : s.pins.rdy.get f = false) : actOn f d s = startStall f s := if_neg (by simp [h])

/-! ### A choice -/

theorem feed_raiseLow : feed (raiseLow f s) f = { feed s f with lowWater := raisedLow f (feed s f) s.lines } := by
  simp [raiseLow]

theorem choose_live (hst : (feed s f).state = .live) (hfl : (feed s f).flight = none) : choose f s = chooseLive f s := by
  simp [choose, hst, hfl]

/-- A LIVE feed's edit queue and announced-through serial as its choice leaves them (R164, R165). -/
def served : State := setFeedCtx f { feed s f with edits := (liveChoice s f).1, announced := (liveChoice s f).2.1 } s

theorem chooseLive_due (d : Due) (h : (liveChoice s f).2.2 = some d) : chooseLive f s = raiseLow f (actOn f d (served f s)) := by
  simp [chooseLive, served, h]

theorem chooseLive_none (h : (liveChoice s f).2.2 = none) : chooseLive f s = raiseLow f (served f s) := by
  simp [chooseLive, served, h]

/-- While FnRDY is asserted a choice starts no stall timer (R172). -/
theorem choose_stallTimer (h : s.pins.rdy.get f = true) : (feed (choose f s) f).stallTimer = (feed s f).stallTimer := by
  have hlive : (feed (chooseLive f s) f).stallTimer = (feed s f).stallTimer := by
    cases hd : (liveChoice s f).2.2 with
    | none => rw [chooseLive_none f s hd, feed_raiseLow, served, feed_setFeedCtx_self]
    | some d => rw [chooseLive_due f s d hd, feed_raiseLow, actOn_ready f (served f s) d h, startFrame_stallTimer, served,
        feed_setFeedCtx_self]
  unfold choose
  dsimp only
  repeat' split
  · rfl
  · exact hlive
  · rw [actOn_ready f s _ h, startFrame_stallTimer]
  · rfl
  · rw [actOn_ready f s _ h, startFrame_stallTimer]
  · rfl
  · rfl
  · rfl

end Start

/-! ### A change of hold -/

/-- The state a feed takes by its hold sources: LIVE and HELD follow them (R174, R175). -/
def FeedState.byHold (active : Bool) : FeedState → FeedState
  | .live | .held => if active then .held else .live
  | st => st

/-- Of every feed but `f` stands what no choice changes. -/
def OthersSame (f : Fin 4) (s t : State) : Prop := t.feeds.gate = s.feeds.gate ∧ ∀ g, f ≠ g → SameFeed (feed s g) (feed t g)

theorem FeedsKept.others {s t : State} (h : FeedsKept s t) (f : Fin 4) : OthersSame f s t := ⟨h.1, fun g _ => h.2 g⟩

theorem OthersSame.trans {f : Fin 4} {s t u : State} (h1 : OthersSame f s t) (h2 : OthersSame f t u) : OthersSame f s u :=
  ⟨h2.1.trans h1.1, fun g hg => (h1.2 g hg).trans (h2.2 g hg)⟩

theorem setFeedCtx_othersSame (f : Fin 4) (c : Feed) (s : State) : OthersSame f s (setFeedCtx f c s) :=
  ⟨rfl, fun g hg => by rw [feed_setFeedCtx, if_neg hg]; exact .refl _⟩

section Hold
variable (f : Fin 4) (s : State)

/-- What the feed makes of its hold sources by itself: its state follows them, its health code is formed, and it chooses (R163, R174). -/
def followHold : State := choose f (refreshHealth f (enterByHold f s))

theorem followHold_kept : FeedsKept (enterByHold f s) (followHold f s) := (refreshHealth_kept f _).trans (choose_kept f _)

theorem followHold_state : (feed (followHold f s) f).state = if holdActive s f then .held else .live := by
  rw [((followHold_kept f s).2 f).state, enterByHold, feed_setFeedCtx_self]

theorem followHold_benchHold : (feed (followHold f s) f).benchHold = (feed s f).benchHold := by
  rw [((followHold_kept f s).2 f).benchHold, enterByHold, feed_setFeedCtx_self]

theorem followHold_others : OthersSame f s (followHold f s) :=
  (setFeedCtx_othersSame f _ s).trans ((followHold_kept f s).others f)

/-- A change of hold leaves the feed, or has it follow its hold sources. -/
theorem holdChanged_cases : (holdChanged f s = s ∧ (feed s f).state.byHold (holdActive s f) = (feed s f).state) ∨
    (holdChanged f s = followHold f s ∧ ((feed s f).state = .live ∨ (feed s f).state = .held)) := by
  unfold holdChanged followHold
  cases hst : (feed s f).state with
  | live => cases hold : holdActive s f <;> simp [FeedState.byHold]
  | held => cases hold : holdActive s f <;> simp [FeedState.byHold]
  | off | stalled | stopping | test => exact .inl ⟨rfl, rfl⟩

theorem holdChanged_state : (feed (holdChanged f s) f).state = (feed s f).state.byHold (holdActive s f) := by
  rcases holdChanged_cases f s with ⟨e, hst⟩ | ⟨e, hst⟩
  · rw [e, hst]
  · rw [e, followHold_state]
    rcases hst with h | h <;> rw [h] <;> rfl

theorem holdChanged_benchHold : (feed (holdChanged f s) f).benchHold = (feed s f).benchHold := by
  rcases holdChanged_cases f s with ⟨e, -⟩ | ⟨e, -⟩ <;> rw [e]
  exact followHold_benchHold f s

theorem holdChanged_others : OthersSame f s (holdChanged f s) := by
  rcases holdChanged_cases f s with ⟨e, -⟩ | ⟨e, -⟩ <;> rw [e]
  · exact (FeedsKept.of_eq rfl).others f
  · exact followHold_others f s

end Hold

/-! ### FnRDY -/

section Ready
variable (f : Fin 4) (s : State)

theorem exec_rdy_low (h : s.pins.rdy.get f = true) : exec (.fnrdyChange f false) s = .next (setRdy f false s) := by
  show Host.Outcome.next (rdyChanged f false s) = _
  simp [rdyChanged, h]

theorem exec_rdy_high (h : s.pins.rdy.get f = false) : exec (.fnrdyChange f true) s = .next (rdyAsserted f (setRdy f true s)) := by
  show Host.Outcome.next (rdyChanged f true s) = _
  simp [rdyChanged, h]

/-- The context an assertion of FnRDY leaves before the health code is formed and the feed chooses: its timer stopped, its receiver seen, and a
STALLED feed LIVE or HELD (R173). -/
def readied : State :=
  if (feed s f).state = .stalled then enterByHold f (setFeedCtx f (feed s f).seeReady s) else setFeedCtx f (feed s f).seeReady s

theorem rdyAsserted_eq : rdyAsserted f s = choose f (refreshHealth f (readied f s)) := rfl

theorem rdyAsserted_kept : FeedsKept (readied f s) (rdyAsserted f s) := (refreshHealth_kept f _).trans (choose_kept f _)

theorem readied_stalled (h : (feed s f).state = .stalled) : feed (readied f s) f = { (feed s f).seeReady with
    state := if holdActive s f then .held else .live, idleTimer := some (s.now + (feed s f).idleInterval) } := by
  simp [readied, h, enterByHold, holdActive, Feed.seeReady]

theorem readied_other (h : (feed s f).state ≠ .stalled) : feed (readied f s) f = (feed s f).seeReady := by
  simp [readied, h]

theorem readied_seeReady : (feed (readied f s) f).stallTimer = none ∧
    (feed (readied f s) f).seen = ((feed s f).seen || (feed s f).state.enabled) := by
  by_cases h : (feed s f).state = .stalled
  · rw [readied_stalled f s h]
    exact ⟨rfl, rfl⟩
  · rw [readied_other f s h]
    exact ⟨rfl, rfl⟩

theorem rdyAsserted_stallTimer (h : s.pins.rdy.get f = true) : (feed (rdyAsserted f s) f).stallTimer = none := by
  have hpins : (refreshHealth f (readied f s)).pins.rdy.get f = true := by
    have : (readied f s).pins = s.pins := by unfold readied; split <;> simp
    simp [this, h]
  rw [rdyAsserted_eq, choose_stallTimer f _ hpins, feed_refreshHealth, if_pos rfl]
  exact (readied_seeReady f s).1

end Ready

/-! ### FGATE3 -/

/-- The gate set as FGATE3 goes to a level, before F3 follows (R175). -/
def gateSet (high : Bool) (s : State) : State := setGate (!high) { s with pins := { s.pins with fgate3 := high } }

theorem exec_gate_low (s : State) (hr : s.pins.rstnHeld = false) (h : s.pins.fgate3 = true) :
    exec (.fgate3Change false) s = .next (holdChanged 3 (postBoth .feedGate (gateSet false s))) := by
  show Host.Outcome.next (gateChanged false s) = _
  simp [gateChanged, gateSet, hr, h]

theorem exec_gate_high (s : State) (hr : s.pins.rstnHeld = false) (h : s.pins.fgate3 = false) :
    exec (.fgate3Change true) s = .next (holdChanged 3 (gateSet true s)) := by
  show Host.Outcome.next (gateChanged true s) = _
  simp [gateChanged, gateSet, hr, h]

theorem holdChanged_posted (f : Fin 4) (n : Notice) (s : State) :
    latchHolds n (holdChanged f (postBoth n s)).reporter.attn = true ∧ latchHolds n (holdChanged f (postBoth n s)).bench.attn = true :=
  have hkept := holdChanged_flags f (postBoth n s)
  ⟨hkept.holds .reporter n (by simp [postBoth, post]), hkept.holds .bench n (by simp [postBoth, post])⟩

/-- Settles O41: FnRDY through the context it leaves before the choice, FGATE3 through the change of hold it brings. -/
theorem feedPinsAreFollowed : Obligations.FeedPinsAreFollowed := by
  intro s f
  refine ⟨exec_rdy_low f s, fun h => ?_, fun hr h => ?_, fun hr h => ?_⟩
  · have hkept := (rdyAsserted_kept f (setRdy f true s)).2 f
    refine ⟨_, exec_rdy_high f s h, by simp, rdyAsserted_stallTimer f _ (by simp), fun he => ?_, fun hst => ?_, fun hst => ?_, ?_⟩
    · rw [hkept.seen, (readied_seeReady f _).2, Bool.or_eq_true]
      exact .inr he
    · rw [hkept.state, readied_stalled f (setRdy f true s) hst]
      rfl
    · rw [hkept.state, readied_other f (setRdy f true s) hst]
      rfl
    · simp [OnlyFeedsMove]
  · have hst : ∀ x, feed (postBoth .feedGate (gateSet false s)) x = feed s x := fun x => by simp [feed, gateSet]
    have hact : holdActive (postBoth .feedGate (gateSet false s)) 3 = true := by simp [holdActive, gateSet]
    obtain ⟨hrep, hben⟩ := holdChanged_posted 3 .feedGate (gateSet false s)
    refine ⟨_, exec_gate_low s hr h, ?_, by simp [gateSet], hrep, hben, fun hl => ?_, fun hl => ?_, by simp [OnlyFeedsMove, gateSet]⟩
    · rw [(holdChanged_others 3 _).1]
      simp [gateSet]
    · rw [holdChanged_state, hst, hact, hl]
      rfl
    · rw [holdChanged_state, hst, hact]
      cases hs : (feed s 3).state with
      | live => exact absurd hs hl
      | _ => rfl
  · have hst : feed (gateSet true s) 3 = feed s 3 := rfl
    have hact : holdActive (gateSet true s) 3 = (feed s 3).benchHold := by simp [holdActive, gateSet, feed]
    refine ⟨_, exec_gate_high s hr h, (holdChanged_others 3 _).1, fun hh hb => ?_, fun hh hb => ?_, by simp [OnlyFeedsMove, gateSet]⟩
    · rw [holdChanged_state, hst, hact, hh, hb]
      rfl
    · rw [holdChanged_state, hst, hact, hh, hb]
      rfl

end Sys2Proof.Machine

/-! Hold Feeds and Release Feeds (O45): what a change of the bench hold makes of each feed of a set. -/

namespace Sys2Proof.Machine

/-! ### The feeds of a set -/

theorem mem_feedsOf (b : Byte) (g : Fin 4) : g ∈ feedsOf b ↔ b.getLsbD g.val = true := by
  simp [feedsOf, mem_allFeeds]

theorem badFeedSet_iff (b : Byte) : badFeedSet b = true ↔ b = 0#8 ∨ 16 ≤ b.toNat := by
  simp [badFeedSet]

/-- The set of one feed. -/
theorem feedsOf_single (f g : Fin 4) : (BitVec.twoPow 8 f.val).getLsbD g.val = true ↔ g = f := by
  revert f g
  decide

theorem single_good (f : Fin 4) : BitVec.twoPow 8 f.val ≠ 0#8 ∧ (BitVec.twoPow 8 f.val).toNat < 16 := by
  revert f
  decide

/-! ### One feed -/

section SetHold
variable (on : Bool) (s : State) (f : Fin 4)

theorem setHold_same (h : (feed s f).benchHold = on) : setHold on s f = s := if_pos h

theorem setHold_changes (h : (feed s f).benchHold ≠ on) :
    setHold on s f = holdChanged f (setFeedCtx f { feed s f with benchHold := on } s) := if_neg h

theorem setHold_benchHold : (feed (setHold on s f) f).benchHold = on := by
  by_cases h : (feed s f).benchHold = on
  · rw [setHold_same on s f h, h]
  · rw [setHold_changes on s f h, holdChanged_benchHold, feed_setFeedCtx_self]

/-- Where the bench hold changes the feed follows its hold sources (R174). -/
theorem setHold_state (h : (feed s f).benchHold ≠ on) :
    (feed (setHold on s f) f).state = (feed s f).state.byHold (on || (f = 3 && s.feeds.gate)) := by
  rw [setHold_changes on s f h, holdChanged_state, holdActive, feed_setFeedCtx_self]
  rfl

theorem setHold_others : OthersSame f s (setHold on s f) := by
  by_cases h : (feed s f).benchHold = on
  · rw [setHold_same on s f h]
    exact (FeedsKept.of_eq rfl).others f
  · rw [setHold_changes on s f h]
    exact (setFeedCtx_othersSame f _ s).trans (holdChanged_others f _)

end SetHold

/-! ### A set of feeds -/

/-- The bench hold set or cleared on each feed of a list in turn. -/
def holdAll (on : Bool) (fs : List (Fin 4)) (s : State) : State := fs.foldl (setHold on) s

theorem holdAll_onlyFeeds (on : Bool) (fs : List (Fin 4)) (s : State) : OnlyFeedsMove s (holdAll on fs s) := by
  induction fs generalizing s with
  | nil => simp [holdAll, OnlyFeedsMove]
  | cons a fs ih => simpa [OnlyFeedsMove, holdAll] using ih (setHold on s a)

theorem setHold_gate (on : Bool) (s : State) (f : Fin 4) : (setHold on s f).feeds.gate = s.feeds.gate := (setHold_others on s f).1

theorem holdAll_benchHold (on : Bool) (fs : List (Fin 4)) (s : State) (g : Fin 4) :
    (feed (holdAll on fs s) g).benchHold = if g ∈ fs then on else (feed s g).benchHold := by
  unfold holdAll
  induction fs generalizing s with
  | nil => rfl
  | cons a fs ih =>
    rw [List.foldl_cons, ih]
    by_cases ha : a = g
    · subst ha
      simp [setHold_benchHold]
    · simp [((setHold_others on s a).2 g ha).benchHold, Ne.symm ha]

/-- A feed whose bench hold the set changes follows its hold sources once; every other feed keeps its state (R174). -/
theorem holdAll_state (on : Bool) (fs : List (Fin 4)) (s : State) (g : Fin 4) :
    (feed (holdAll on fs s) g).state = if g ∈ fs ∧ (feed s g).benchHold ≠ on
      then (feed s g).state.byHold (on || (g = 3 && s.feeds.gate)) else (feed s g).state := by
  unfold holdAll
  induction fs generalizing s with
  | nil => simp
  | cons a fs ih =>
    rw [List.foldl_cons, ih, setHold_gate]
    by_cases ha : a = g
    · subst ha
      by_cases hb : (feed s a).benchHold = on
      · simp [setHold_same on s a hb, hb]
      · simp [setHold_benchHold, setHold_state on s a hb, hb]
    · have hsame := (setHold_others on s a).2 g ha
      simp [hsame.benchHold, hsame.state, Ne.symm ha]

/-! ### The requests -/

@[simp] theorem holdPayload_touchPresence (l : Link) (s : State) : holdPayload (touchPresence l s) = holdPayload s := by
  simp [holdPayload]

@[simp] theorem holdPayload_answered (l : Link) (r : Req) (tag : Byte) (st : Status) (p : List Byte) (s : State) :
    holdPayload (answered l r tag st p s) = holdPayload s := by
  simp [holdPayload]

section Requests
variable (on : Bool) (tag : Byte) (s : State) (b : Byte)

/-- The request that sets the bench hold, or the one that clears it. -/
def holdReq : Bool → Req
  | true => .holdFeeds
  | false => .releaseFeeds

/-- The command of either request on the bench link. -/
def holdInstr (tag b : Byte) : Bool → Instr
  | true => .holdFeeds .bench tag (.fields b)
  | false => .releaseFeeds .bench tag (.fields b)

/-- The state after a set whose hold changes, before the response. -/
def heldState : State := holdAll on (feedsOf b) (touchPresence .bench s)

theorem exec_holdInstr (ht : Takes .bench s) : exec (holdInstr tag b on) s =
    .next (deliver .bench (holdReq on).code tag (holdOrRelease on b (touchPresence .bench s))) := by
  cases on <;> exact congrArg _ (serve_takes _ _ _ _ _ s ht rfl)

theorem hold_range (ht : Takes .bench s) (h : b = 0#8 ∨ 16 ≤ b.toNat) : exec (holdInstr tag b on) s =
    .next (answered .bench (holdReq on) tag .range [] (touchPresence .bench s)) := by
  rw [exec_holdInstr on tag s b ht, holdOrRelease, if_pos ((badFeedSet_iff b).2 h), deliver_refuse]

theorem hold_already (ht : Takes .bench s) (h0 : b ≠ 0#8) (h16 : b.toNat < 16)
    (h : ∀ g : Fin 4, b.getLsbD g.val = true → (feed s g).benchHold = on) : exec (holdInstr tag b on) s =
      .next (answered .bench (holdReq on) tag .already (holdPayload s) (touchPresence .bench s)) := by
  have hgood : ¬badFeedSet b = true := fun hb => ((badFeedSet_iff b).1 hb).elim h0 (Nat.not_le.2 h16)
  have hall : (feedsOf b).all (fun g => (feed (touchPresence .bench s) g).benchHold = on) = true := by
    simpa [mem_feedsOf, feed_touchPresence] using h
  rw [exec_holdInstr on tag s b ht, holdOrRelease, if_neg hgood, if_pos hall, holdPayload_touchPresence, deliver_done]

theorem hold_ok (ht : Takes .bench s) (h16 : b.toNat < 16)
    (h : ∃ g : Fin 4, b.getLsbD g.val = true ∧ (feed s g).benchHold ≠ on) : exec (holdInstr tag b on) s =
      .next (answered .bench (holdReq on) tag .ok (holdPayload (heldState on s b)) (heldState on s b)) := by
  obtain ⟨g, hg, hne⟩ := h
  have hgood : ¬badFeedSet b = true := fun hb => ((badFeedSet_iff b).1 hb).elim (fun e => by simp [e] at hg) (Nat.not_le.2 h16)
  have hall : ¬(feedsOf b).all (fun g => (feed (touchPresence .bench s) g).benchHold = on) = true := fun hall =>
    hne (by simpa [feed_touchPresence] using List.all_eq_true.1 hall g ((mem_feedsOf b g).2 hg))
  rw [exec_holdInstr on tag s b ht, holdOrRelease, if_neg hgood, if_neg hall, deliver_done]
  rfl

theorem heldState_onlyFeeds (r : Req) (st : Status) (p : List Byte) :
    OnlyFeedsMove s (answered .bench r tag st p (heldState on s b)) := by
  simpa [OnlyFeedsMove, heldState] using holdAll_onlyFeeds on (feedsOf b) (touchPresence .bench s)

/-- What a set whose hold changes makes of each feed (R174). -/
theorem heldState_feed (r : Req) (st : Status) (p : List Byte) (g : Fin 4) :
    (feed (answered .bench r tag st p (heldState on s b)) g).benchHold =
        (if b.getLsbD g.val = true then on else (feed s g).benchHold) ∧
      (feed (answered .bench r tag st p (heldState on s b)) g).state =
        if b.getLsbD g.val = true ∧ (feed s g).benchHold ≠ on
          then (feed s g).state.byHold (on || (g = 3 && s.feeds.gate)) else (feed s g).state := by
  rw [feed_answered, heldState, holdAll_benchHold, holdAll_state]
  simp [mem_feedsOf, feed_touchPresence]

end Requests

theorem FeedState.byHold_true (st : FeedState) : st.byHold true = if st = .live then .held else st := by cases st <;> rfl

theorem FeedState.byHold_false (st : FeedState) : st.byHold false = if st = .held then .live else st := by cases st <;> rfl

/-- A feed that is neither LIVE nor HELD does not follow its hold sources (R174). -/
theorem FeedState.byHold_other (active : Bool) (st : FeedState) (hh : st ≠ .held) (hl : st ≠ .live) : st.byHold active = st := by
  cases st with
  | live => exact absurd rfl hl
  | held => exact absurd rfl hh
  | _ => rfl

/-- Settles O45: each request on a set of feeds, and the set of one feed as a case of it. -/
theorem holdAndReleaseMoveTheFeed : Obligations.HoldAndReleaseMoveTheFeed := by
  intro tag s f ht
  have hone : (BitVec.twoPow 8 f.val).getLsbD f.val = true := (feedsOf_single f f).2 rfl
  obtain ⟨h0, h16⟩ := single_good f
  refine ⟨fun hb => ?_, fun hb => ?_, fun b hb => ⟨hold_range true tag s b ht hb, hold_range false tag s b ht hb⟩,
    fun hb => ?_, fun b hb0 hb16 => ⟨hold_already true tag s b ht hb0 hb16, hold_already false tag s b ht hb0 hb16, ?_, ?_⟩⟩
  · obtain ⟨hh, hst⟩ := heldState_feed true tag s _ .holdFeeds .ok (holdPayload (heldState true s (BitVec.twoPow 8 f.val))) f
    refine ⟨_, hold_ok true tag s _ ht h16 ⟨f, hone, by simp [hb]⟩, ?_, ?_, ⟨_, rfl, rfl⟩, heldState_onlyFeeds ..⟩
    · rw [holdReq, hh, if_pos hone]
    · rw [holdReq, hst, if_pos ⟨hone, by simp [hb]⟩, Bool.true_or, FeedState.byHold_true]
  · obtain ⟨hh, hst⟩ := heldState_feed false tag s _ .releaseFeeds .ok (holdPayload (heldState false s (BitVec.twoPow 8 f.val))) f
    refine ⟨_, hold_ok false tag s _ ht h16 ⟨f, hone, by simp [hb]⟩, ?_, fun hg => ?_, ⟨_, rfl, rfl⟩, heldState_onlyFeeds ..⟩
    · rw [holdReq, hh, if_pos hone]
    · have hactive : (false || (decide (f = 3) && s.feeds.gate)) = false := by simpa using hg
      rw [holdReq, hst, if_pos ⟨hone, by simp [hb]⟩, hactive, FeedState.byHold_false]
  · refine hold_already true tag s _ ht h0 h16 fun g hg => ?_
    rw [(feedsOf_single f g).1 hg, hb]
  · rintro ⟨g, hg, hb⟩
    refine ⟨_, hold_ok true tag s b ht hb16 ⟨g, hg, by simp [hb]⟩, ⟨_, rfl, rfl, by simp⟩, fun x => ?_, heldState_onlyFeeds ..⟩
    obtain ⟨hh, hst⟩ := heldState_feed true tag s b (holdReq true) .ok (holdPayload (heldState true s b)) x
    refine ⟨?_, ?_⟩
    · rw [hh]
      cases b.getLsbD x.val <;> simp
    · rw [hst, Bool.true_or, FeedState.byHold_true]
      by_cases hx : b.getLsbD x.val = true ∧ (feed s x).benchHold = false
      · simp [hx]
      · have hx' : ¬(b.getLsbD x.val = true ∧ (feed s x).benchHold ≠ true) := by simpa using hx
        rw [if_neg hx', if_neg fun h => hx ⟨h.1, h.2.1⟩]
  · rintro ⟨g, hg, hb⟩
    refine ⟨_, hold_ok false tag s b ht hb16 ⟨g, hg, by simp [hb]⟩, ⟨_, rfl, rfl, by simp⟩, fun x => ?_, heldState_onlyFeeds ..⟩
    obtain ⟨hh, hst⟩ := heldState_feed false tag s b (holdReq false) .ok (holdPayload (heldState false s b)) x
    refine ⟨?_, fun hin hheld hst' => ?_, fun hout => ?_⟩
    · rw [hh]
      cases b.getLsbD x.val <;> simp
    · rw [hst, if_pos ⟨hin, by simp [hheld]⟩, hst']
      simp [FeedState.byHold]
    · rw [hst]
      split
      · next hx =>
        rcases hout with h | h | ⟨hh', hl⟩
        · simp [h] at hx
        · exact absurd h hx.2
        · exact FeedState.byHold_other _ _ hh' hl
      · rfl

end Sys2Proof.Machine

/-! A LIVE feed's frame choice: what the scan finds at each record, the frame it yields, and the low water after it (R164, R165, R167). -/

namespace Sys2Proof.Machine

/-! ### What the scan finds at one record (R165) -/

/-- The line needs a frame of the feed: a WITHDRAW it has not sent, its text as it stands, or the announcement of a run it may not show. -/
def Line.needs (f : Fin 4) (a : Audience) (announced : Nat) (l : Line) : Bool :=
  if l.state = .withdrawn then l.sent.get f ≠ 0 && !l.withdrawSent.get f
  else if visible a l.cls then l.revision ≠ l.sent.get f else decide (announced < l.serial)

/-- A record that needs no frame of the feed, by its state and its class (R165). -/
theorem needs_false_iff (f : Fin 4) (a : Audience) (ann : Nat) (l : Line) : l.needs f a ann = false ↔
    if l.state = .withdrawn then l.sent.get f = 0 ∨ l.withdrawSent.get f = true
      else if visible a l.cls = true then l.revision = l.sent.get f else l.serial ≤ ann := by
  unfold Line.needs
  split
  · cases l.withdrawSent.get f <;> simp
  · split <;> simp

section LookAt
variable {f : Fin 4} {a : Audience} {ann : Nat} {l : Line}

theorem lookAt_pass (p : Option Line) (h : l.needs f a ann = false) : lookAt f a ann p l = .pass := by
  rw [needs_false_iff] at h
  unfold lookAt
  by_cases hw : l.state = .withdrawn
  · rw [if_pos hw] at h ⊢
    exact if_neg fun ⟨h0, h1⟩ => by simp [h0, h1] at h
  · rw [if_neg hw] at h ⊢
    cases hv : visible a l.cls with
    | true =>
      rw [hv, if_pos rfl] at h
      exact (if_pos rfl).trans (if_pos h)
    | false =>
      rw [hv, if_neg (by simp)] at h
      exact (if_neg (by simp)).trans (if_pos h)

theorem lookAt_withdrawn (p : Option Line) (hw : l.state = .withdrawn) (h : l.needs f a ann = true) :
    lookAt f a ann p l = .due (.withdraw l) := by
  rw [Line.needs, if_pos hw] at h
  simpa [lookAt, hw] using h

theorem lookAt_visible (p : Option Line) (hw : l.state ≠ .withdrawn) (hv : visible a l.cls = true) (h : l.needs f a ann = true) :
    lookAt f a ann p l = .due (if l.sent.get f = 0 then .line l else .update l false) := by
  rw [Line.needs, if_neg hw, if_pos hv, decide_eq_true_iff] at h
  unfold lookAt
  rw [if_neg hw, if_pos hv, if_neg h]
  split <;> rfl

theorem needs_invisible (hw : l.state ≠ .withdrawn) (hv : visible a l.cls = false) : l.needs f a ann = true ↔ ann < l.serial := by
  simp [Line.needs, hw, hv]

/-- An invisible run begins at the line: the line below it is visible, or is not announced. -/
theorem lookAt_withheld (p : Option Line) (hw : l.state ≠ .withdrawn) (hv : visible a l.cls = false) (h : l.needs f a ann = true)
    (hp : ∀ q, p = some q → visible a q.cls = true ∨ ann < q.serial) : lookAt f a ann p l = .due (.withheld l) := by
  unfold lookAt
  rw [if_neg hw, if_neg (by simp [hv]), if_neg (Nat.not_le.2 ((needs_invisible hw hv).1 h))]
  cases p with
  | none => rfl
  | some q =>
    refine if_neg fun ⟨hq, hann⟩ => ?_
    rcases hp q rfl with h | h
    · simp [hq] at h
    · exact Nat.not_lt.2 hann h

/-- The line goes on with a run that has been announced up to the line below it. -/
theorem lookAt_cover (q : Line) (hw : l.state ≠ .withdrawn) (hv : visible a l.cls = false) (h : l.needs f a ann = true)
    (hq : visible a q.cls = false) (hann : q.serial ≤ ann) : lookAt f a ann (some q) l = .cover := by
  unfold lookAt
  rw [if_neg hw, if_neg (by simp [hv]), if_neg (Nat.not_le.2 ((needs_invisible hw hv).1 h))]
  exact if_pos ⟨hq, hann⟩

/-- A line found to need a WITHHELD, or found covered, is beyond what is announced. -/
theorem lookAt_beyond (p : Option Line) (h : lookAt f a ann p l = .due (.withheld l) ∨ lookAt f a ann p l = .cover) : ann < l.serial := by
  by_contra hle
  unfold lookAt at h
  rw [if_pos (Nat.not_lt.1 hle)] at h
  repeat' split at h
  all_goals simp at h

/-- A due WITHHELD names the line looked at. -/
theorem lookAt_withheld_line (p : Option Line) (x : Line) (h : lookAt f a ann p l = .due (.withheld x)) : x = l := by
  unfold lookAt at h
  repeat' split at h
  all_goals simp at h
  all_goals exact h.symm

end LookAt

/-! ### The scan -/

/-- The last record of a list that is not WITHDRAWN, or the one before the list. -/
def lastStanding (prev : Option Line) (rs : List Line) : Option Line :=
  rs.foldl (fun p l => if l.state = .withdrawn then p else some l) prev

section Scan
variable {f : Fin 4} {a : Audience} {low : Nat}

/-- Records below the low water, and records that need no frame, are passed, and announce nothing. -/
theorem scan_passes (as bs : List Line) (prev : Option Line) (ann : Nat)
    (h : ∀ y ∈ as, low ≤ y.serial → y.needs f a ann = false) :
    scan f a low (as ++ bs) prev ann = scan f a low bs (lastStanding prev as) ann := by
  induction as generalizing prev with
  | nil => rfl
  | cons y ys ih =>
    have htail := fun p => ih p fun z hz => h z (List.mem_cons_of_mem y hz)
    rw [List.cons_append, scan]
    by_cases hlow : y.serial < low
    · simp only [hlow, if_true]
      exact htail _
    · simp only [hlow, if_false, lookAt_pass prev (h y (List.mem_cons_self ..) (Nat.not_lt.1 hlow))]
      exact htail _

theorem scan_quiet (rs : List Line) (prev : Option Line) (ann : Nat)
    (h : ∀ y ∈ rs, low ≤ y.serial → y.needs f a ann = false) : scan f a low rs prev ann = (ann, none) := by
  simpa [scan] using scan_passes rs [] prev ann h

theorem scan_due {l : Line} (ls : List Line) (prev : Option Line) (ann : Nat) (d : Due) (hlow : low ≤ l.serial)
    (h : lookAt f a ann prev l = .due d) : scan f a low (l :: ls) prev ann = (ann, some d) := by
  simp [scan, Nat.not_lt.2 hlow, h]

/-- The scan announces no less than before, and a WITHHELD due announces more (R165, R166). -/
theorem scan_announced (rs : List Line) (prev : Option Line) (ann : Nat) : ann ≤ (scan f a low rs prev ann).1 ∧
    ∀ x, (scan f a low rs prev ann).2 = some (.withheld x) → (scan f a low rs prev ann).1 < x.serial := by
  induction rs generalizing prev ann with
  | nil => exact ⟨Nat.le_refl _, fun x h => by simp [scan] at h⟩
  | cons y ys ih =>
    unfold scan
    dsimp only
    split
    · exact ih _ _
    · split
      · next d e =>
        refine ⟨Nat.le_refl _, fun x h => ?_⟩
        simp only [Option.some.injEq] at h
        subst h
        obtain rfl := lookAt_withheld_line prev x e
        exact lookAt_beyond prev (.inl e)
      · next e =>
        obtain ⟨hle, hx⟩ := ih (if y.state = .withdrawn then prev else some y) y.serial
        exact ⟨(Nat.le_of_lt (lookAt_beyond prev (.inr e))).trans hle, hx⟩
      · exact ih _ _

/-- A line covered is announced, and the scan goes on. -/
theorem scan_cover {l : Line} (ls : List Line) (prev : Option Line) (ann : Nat) (hlow : low ≤ l.serial)
    (h : lookAt f a ann prev l = .cover) : scan f a low (l :: ls) prev ann =
      scan f a low ls (if l.state = .withdrawn then prev else some l) l.serial := by
  simp [scan, Nat.not_lt.2 hlow, h]

/-- The scan comes to the first record that needs a frame with nothing more announced. -/
theorem scan_to_first {rs : List Line} {ann : Nat} {l : Line}
    (h : rs.find? (fun y => decide (low ≤ y.serial) && y.needs f a ann) = some l) :
    ∃ as bs, rs = as ++ l :: bs ∧ low ≤ l.serial ∧ l.needs f a ann = true ∧
      scan f a low rs none ann = scan f a low (l :: bs) (lastStanding none as) ann := by
  obtain ⟨hl, as, bs, rfl, has⟩ := List.find?_eq_some_iff_append.1 h
  rw [Bool.and_eq_true, decide_eq_true_iff] at hl
  refine ⟨as, bs, rfl, hl.1, hl.2, scan_passes as _ none ann fun y hy hlow => ?_⟩
  simpa [hlow] using has y hy

theorem lastStanding_eq (as : List Line) : lastStanding none as = (as.filter (fun l => decide (l.state ≠ .withdrawn))).getLast? := by
  induction as using List.reverseRecOn with
  | nil => rfl
  | append_singleton as l ih =>
    rw [lastStanding, List.foldl_append, List.filter_append]
    by_cases hw : l.state = .withdrawn
    · simpa [hw, lastStanding] using ih
    · simp [hw]

/-- In order of serial, the record the scan holds as the one below is the nearest below that is not WITHDRAWN (R165). -/
theorem below_eq_lastStanding {as bs : List Line} {l : Line} (h : (as ++ l :: bs).Pairwise (fun x y => x.serial < y.serial)) :
    below (as ++ l :: bs) l.serial = lastStanding none as := by
  obtain ⟨-, hright, hcross⟩ := List.pairwise_append.1 h
  have hbelow : as.filter (fun x => decide (x.serial < l.serial) && decide (x.state ≠ .withdrawn)) =
      as.filter (fun x => decide (x.state ≠ .withdrawn)) :=
    List.filter_congr fun x hx => by simp [hcross x hx l (List.mem_cons_self ..)]
  have habove : bs.filter (fun x => decide (x.serial < l.serial) && decide (x.state ≠ .withdrawn)) = [] :=
    List.filter_eq_nil_iff.2 fun x hx => by simp [Nat.le_of_lt ((List.pairwise_cons.1 hright).1 x hx)]
  rw [lastStanding_eq, below, List.filter_append, hbelow, List.filter_cons, habove]
  simp

end Scan

/-! ### The choice of a LIVE feed (R164) -/

section Choice
variable (f : Fin 4) (s : State)

theorem liveChoice_edit (n : Nat) (ns : List Nat) (l : Line) (hq : (feed s f).edits = n :: ns)
    (hl : findLine s.lines.records n = some l) (hv : visible (feed s f).audience l.cls = true) :
    liveChoice s f = (n :: ns, (feed s f).announced, some (.update l true)) := by
  simp [liveChoice, hq, serveEdits, hl, hv]

/-- With no edit queued the scan tells the choice, and an IDLE frame that is due comes last. -/
theorem liveChoice_scan (hq : (feed s f).edits = []) (r : Nat × Option Due)
    (h : scan f (feed s f).audience (feed s f).lowWater s.lines.records none (feed s f).announced = r) :
    liveChoice s f = ([], r.1, r.2.or (if (feed s f).idleDue then some .idle else none)) := by
  simp only [liveChoice, hq, serveEdits, h]
  cases r.2 <;> rfl

/-- No edit is queued, and no record from the low water up needs a frame. -/
def Feed.quiet (f : Fin 4) (c : Feed) (rs : List Line) : Prop :=
  c.edits = [] ∧ ∀ l ∈ rs, c.lowWater ≤ l.serial → l.needs f c.audience c.announced = false

theorem chooseLive_quiet (h : (feed s f).quiet f s.lines.records) :
    chooseLive f s = raiseLow f (if (feed s f).idleDue then actOn f .idle s else s) := by
  obtain ⟨hq, hrs⟩ := h
  have hchoice := liveChoice_scan f s hq _ (scan_quiet _ none _ hrs)
  have hserved : served f s = s := by
    rw [served, hchoice, ← hq]
    exact setFeedCtx_feed f s
  by_cases hi : (feed s f).idleDue = true
  · rw [chooseLive_due f s .idle (by simp [hchoice, hi]), hserved, if_pos hi]
  · rw [chooseLive_none f s (by simp [hchoice, hi]), hserved, if_neg hi]

/-- A line that needs no frame now may need one later where it is shown and not yet settled (R167). -/
theorem not_passable_of_needless (c : Feed) (l : Line) (h : l.needs f c.audience c.announced = false) :
    (!passable f c l) = (visible c.audience l.cls && (l.state = .opn || l.state = .closed)) := by
  rw [needs_false_iff] at h
  unfold passable
  by_cases hw : l.state = .withdrawn
  · rw [if_pos hw] at h
    rcases h with h | h <;> simp [hw, h]
  · rw [if_neg hw] at h
    cases hv : visible c.audience l.cls with
    | true =>
      rw [hv, if_pos rfl] at h
      cases hst : l.state with
      | withdrawn => exact absurd hst hw
      | opn | closed | settled => simp [h]
    | false =>
      rw [hv, if_neg (by simp)] at h
      simp [h]

/-- The low water where nothing needs a frame: the first line that is shown and may change yet keeps it (R167). -/
theorem raisedLow_quiet (c : Feed) (ls : LineStore) (h : c.quiet f ls.records) : raisedLow f c ls =
    match ls.records.find? (fun y => decide (c.lowWater ≤ y.serial) && visible c.audience y.cls
      && (y.state = .opn || y.state = .closed)) with
    | some y => y.serial
    | none => max c.lowWater (ls.counter + 1) := by
  have hpass : ∀ y ∈ ls.records, (decide (c.lowWater ≤ y.serial) && !passable f c y) =
      (decide (c.lowWater ≤ y.serial) && visible c.audience y.cls && (y.state = .opn || y.state = .closed)) := by
    intro y hy
    by_cases hlow : c.lowWater ≤ y.serial
    · rw [not_passable_of_needless f c y (h.2 y hy hlow), Bool.and_assoc]
    · simp [hlow]
  rw [raisedLow, List.find?_congr hpass] <;> rfl

end Choice

end Sys2Proof.Machine

/-! The expiry of the idle and the stall timer (O43). -/

namespace Sys2Proof.Machine

/-! ### A feed that becomes OFF (R161, R179) -/

section Off
variable (f : Fin 4) (s : State)

/-- The per-line fields of the feed stand at zero in every record (R161). -/
def PerLineZero (t : State) : Prop := ∀ l ∈ t.lines.records, l.sent.get f = 0 ∧ l.withdrawSent.get f = false

/-- A feed OFF, its timers stopped and nothing queued or in flight, but for its low water (R161). -/
def Feed.turnedOff (c : Feed) (low : Nat) : Feed :=
  { c with
    state := .off, idleTimer := none, idleDue := false, stallTimer := none, edits := [], outOfStep := false, withheld := false
    flight := none, lowWater := low }

/-- The feed OFF with its per-line fields cleared, before its health code is formed. -/
def offCleared : State := removeDone (clearPerLine f (setFeedCtx f ((feed s f).turnedOff (feed s f).lowWater) s))

theorem becomeOff_eq : becomeOff f s = refreshHealth f (offCleared f s) := rfl

theorem feed_offCleared : ∃ low, feed (offCleared f s) f = (feed s f).turnedOff low := by
  obtain ⟨low, h⟩ := feed_removeDone (clearPerLine f (setFeedCtx f ((feed s f).turnedOff (feed s f).lowWater) s)) f
  refine ⟨low, h.trans ?_⟩
  simp [clearPerLine, feed_setRecords, Feed.turnedOff]

theorem feed_becomeOff : ∃ low, feed (becomeOff f s) f = { (feed s f).turnedOff low with health := .notEnabled } := by
  obtain ⟨low, h⟩ := feed_offCleared f s
  refine ⟨low, ?_⟩
  rw [becomeOff_eq, feed_refreshHealth, if_pos rfl, h]
  rfl

/-- Both links are told the code NOT_ENABLED (R180, R181). -/
theorem becomeOff_told : HealthTold f (feed s f).health .notEnabled s.reporter (becomeOff f s).reporter ∧
    HealthTold f (feed s f).health .notEnabled s.bench (becomeOff f s).bench := by
  obtain ⟨low, h⟩ := feed_offCleared f s
  have ht := refreshHealth_told f (offCleared f s)
  have hrep : (offCleared f s).reporter = s.reporter := by simp [offCleared]
  have hben : (offCleared f s).bench = s.bench := by simp [offCleared]
  rw [h, hrep, hben] at ht
  exact ht

theorem becomeOff_perLine : PerLineZero f (becomeOff f s) := by
  intro l hl
  have hrec : (becomeOff f s).lines.records ⊆ (clearPerLine f s).lines.records := by
    simp [becomeOff_eq, offCleared, removeDone, clearPerLine, setRecords]
  obtain ⟨x, -, rfl⟩ := List.mem_map.1 (hrec hl)
  simp

/-- A test that ends leaves the feed OFF, its record with the outcome, and FEED_TEST_DONE posted (R179). -/
theorem feed_endTest (o : TestOutcome) (r : TestRec) (h : (feed s f).test = some r) : ∃ low, feed (endTest f o s) f =
    { (feed s f).turnedOff low with test := some { r with outcome := o }, health := .notEnabled } := by
  obtain ⟨low, e⟩ := feed_becomeOff f (setFeedCtx f { feed s f with test := (feed s f).test.map (fun t => { t with outcome := o }) } s)
  refine ⟨low, ?_⟩
  rw [feed_setFeedCtx_self, h] at e
  have hposted : feed (endTest f o s) f = feed (becomeOff f (setFeedCtx f
      { feed s f with test := (feed s f).test.map (fun t => { t with outcome := o }) } s)) f := by simp [feed, endTest]
  rw [hposted, h, e]
  rfl

theorem endTest_told (o : TestOutcome) : HealthTold f (feed s f).health .notEnabled s.bench (endTest f o s).bench := by
  have h := (becomeOff_told f (setFeedCtx f { feed s f with test := (feed s f).test.map (fun t => { t with outcome := o }) } s)).2
  simpa [endTest, post] using h

theorem endTest_posted (o : TestOutcome) : latchHolds .feedTestDone (endTest f o s).reporter.attn = true := by
  simp [endTest, post]

end Off

/-! ### The idle timer -/

section Idle
variable (f : Fin 4) (s : State)

/-- An IDLE frame is due (R168). -/
def idleSet : State := setFeedCtx f { feed s f with idleTimer := none, idleDue := true } s

theorem exec_idle_due (e : Nat) (h : (feed s f).idleTimer = some e) (hd : e ≤ s.now) :
    exec (.idleTimerExpiry f) s = .next (choose f (idleSet f s)) := by
  show Host.Outcome.next (idleExpired f s) = _
  simp [idleExpired, idleSet, Timer.due, h, hd]

theorem exec_idle_early (e : Nat) (h : (feed s f).idleTimer = some e) (hd : s.now < e) : exec (.idleTimerExpiry f) s = .next s := by
  show Host.Outcome.next (idleExpired f s) = _
  simp [idleExpired, Timer.due, h, hd]

theorem feed_idleSet : feed (idleSet f s) f = { feed s f with idleTimer := none, idleDue := true } := feed_setFeedCtx_self f _ s

theorem choose_held (hst : (feed s f).state = .held) (hfl : (feed s f).flight = none) (hi : (feed s f).idleDue = true) :
    choose f s = actOn f .idle s := by
  simp [choose, hst, hfl, hi]

/-- A LIVE feed that nothing else needs a frame of, with an IDLE frame due: FnRDY tells whether it starts or the stall timer runs (R164, R172). -/
theorem choose_idle (hst : (feed s f).state = .live) (hfl : (feed s f).flight = none) (hi : (feed s f).idleDue = true)
    (hq : (feed s f).quiet f s.lines.records) : choose f s = setFeedCtx f
      (if s.pins.rdy.get f = true then
        { feed s f with
          lowWater := raisedLow f (feed s f) s.lines
          flight := some (.idle false (feed s f).health s.session.number s.lines.counter) }
      else
        { feed s f with
          lowWater := raisedLow f (feed s f) s.lines
          stallTimer := some ((feed s f).stallTimer.getD (s.now + (feed s f).stallTime)) }) s := by
  rw [choose_live f s hst hfl, chooseLive_quiet f s hq, if_pos hi]
  cases hr : s.pins.rdy.get f with
  | true =>
    rw [actOn_ready f s _ hr, start_idle f s false (by simp [hst]), raiseLow_setFeedCtx, if_pos rfl]
    rfl
  | false =>
    rw [actOn_waiting f s _ hr, startStall, raiseLow_setFeedCtx, if_neg (by simp)]
    rfl

end Idle

/-! ### The stall timer -/

section Stall
variable (f : Fin 4) (s : State)

/-- The feed STALLED, its timers stopped, before its health code is formed (R172). -/
def stalledSet : State := setFeedCtx f { feed s f with state := .stalled, stallTimer := none, idleTimer := none } s

theorem exec_stall_early (e : Nat) (h : (feed s f).stallTimer = some e) (hd : s.now < e) : exec (.stallTimerExpiry f) s = .next s := by
  show Host.Outcome.next (stallExpired f s) = _
  simp [stallExpired, Timer.due, h, hd]

theorem exec_stall_due (e : Nat) (h : (feed s f).stallTimer = some e) (hd : e ≤ s.now)
    (hst : (feed s f).state = .live ∨ (feed s f).state = .held) :
    exec (.stallTimerExpiry f) s = .next (refreshHealth f (stalledSet f s)) := by
  show Host.Outcome.next (stallExpired f s) = _
  rcases hst with hst | hst <;> simp [stallExpired, stalledSet, Timer.due, h, hd, hst]

theorem exec_stall_test (e : Nat) (h : (feed s f).stallTimer = some e) (hd : e ≤ s.now) (hst : (feed s f).state = .test) :
    exec (.stallTimerExpiry f) s = .next (endTest f .stalled s) := by
  show Host.Outcome.next (stallExpired f s) = _
  simp [stallExpired, Timer.due, h, hd, hst]

/-- Forming a health code changes the feeds and the links alone. -/
theorem refreshHealth_only : refreshHealth f s = { s with
    feeds := (refreshHealth f s).feeds, reporter := (refreshHealth f s).reporter, bench := (refreshHealth f s).bench } := by
  unfold refreshHealth
  dsimp only
  repeat' split
  all_goals rfl

theorem feed_stalled : feed (refreshHealth f (stalledSet f s)) f = { feed s f with
    state := .stalled, stallTimer := none, idleTimer := none
    health := if (feed s f).seen = true then .stalled else .receiverAbsent } := by
  rw [feed_refreshHealth, if_pos rfl, stalledSet, feed_setFeedCtx_self]
  rfl

theorem feed_stalled_other (g : Fin 4) (h : g ≠ f) : feed (refreshHealth f (stalledSet f s)) g = feed s g := by
  rw [feed_refreshHealth, if_neg (Ne.symm h), stalledSet, feed_setFeedCtx, if_neg (Ne.symm h)]

theorem stalled_told :
    HealthTold f (feed s f).health (feed (refreshHealth f (stalledSet f s)) f).health s.reporter (refreshHealth f (stalledSet f s)).reporter ∧
      HealthTold f (feed s f).health (feed (refreshHealth f (stalledSet f s)) f).health s.bench (refreshHealth f (stalledSet f s)).bench := by
  have h := refreshHealth_told f (stalledSet f s)
  rw [feed_refreshHealth, if_pos rfl]
  simpa [stalledSet] using h

end Stall

/-- Settles O43: the idle timer by the choice that follows, the stall timer by the health code formed or the test ended. -/
theorem feedTimersExpire : Obligations.FeedTimersExpire := by
  intro s f e
  refine ⟨fun h hd hst hfl hr => ?_, fun h hd hst hfl hr => ?_, fun c low hc h hd hst hfl hed hrec hlow => ?_, fun h hd hfl => ?_,
    exec_idle_early f s e, exec_stall_early f s e, fun h hd hst => ?_, fun r h hd hst hr => ?_⟩
  · rw [exec_idle_due f s e h hd, choose_held f _ (by simpa [feed_idleSet] using hst) (by simpa [feed_idleSet] using hfl)
      (by simp [feed_idleSet]), actOn_ready f (idleSet f s) _ hr, start_idle f _ true (by simp [feed_idleSet, hst]), feed_idleSet, idleSet,
      setFeedCtx_setFeedCtx]
    rfl
  · rw [exec_idle_due f s e h hd, choose_held f _ (by simpa [feed_idleSet] using hst) (by simpa [feed_idleSet] using hfl)
      (by simp [feed_idleSet]), actOn_waiting f (idleSet f s) _ hr, startStall, feed_idleSet, idleSet, setFeedCtx_setFeedCtx]
    rfl
  · subst hc
    have hquiet : (feed (idleSet f s) f).quiet f (idleSet f s).lines.records := by
      rw [feed_idleSet]
      exact ⟨hed, fun l hl hle => (needs_false_iff f _ _ l).2 (hrec l hl hle)⟩
    rw [exec_idle_due f s e h hd, choose_idle f _ (by simpa [feed_idleSet] using hst) (by simpa [feed_idleSet] using hfl)
      (by simp [feed_idleSet]) hquiet, raisedLow_quiet f _ _ hquiet, feed_idleSet, hlow, idleSet, setFeedCtx_setFeedCtx]
    exact ⟨fun hr => congrArg _ (congrArg (setFeedCtx f · s) (if_pos hr)),
      fun hr => congrArg _ (congrArg (setFeedCtx f · s) (if_neg (by simp [hr])))⟩
  · rw [exec_idle_due f s e h hd, choose_inFlight f _ (by simpa [feed_idleSet] using hfl)]
    rfl
  · exact ⟨_, exec_stall_due f s e h hd hst, feed_stalled f s, feed_stalled_other f s, (stalled_told f s).1, (stalled_told f s).2,
      refreshHealth_only f (stalledSet f s)⟩
  · obtain ⟨low, hf⟩ := feed_endTest f s .stalled r hr
    refine ⟨_, exec_stall_test f s e h hd hst, ?_, ?_, ?_, endTest_told f s .stalled, endTest_posted f s .stalled⟩
    · rw [hf]
      rfl
    · rw [hf]
    · rw [hf]

end Sys2Proof.Machine

/-! Set Feed, Enable Feed, Disable Feed and Test Feed (O44). -/

namespace Sys2Proof.Machine

theorem feedOf_val {n : Nat} {f : Fin 4} (h : n = f.val) : feedOf n = some f := by
  subst h
  exact dif_pos f.isLt

theorem holdActive_touchPresence (l : Link) (s : State) (f : Fin 4) : holdActive (touchPresence l s) f = holdActive s f := by
  simp [holdActive, feed_touchPresence]

/-- A request's answer leaves what only the feeds and the lines may change. -/
theorem answered_onlyFeeds {s t : State} (l : Link) (r : Req) (tag : Byte) (st : Status) (p : List Byte)
    (h : OnlyFeedsMove (touchPresence l s) t) : OnlyFeedsMove s (answered l r tag st p t) := by
  simpa [OnlyFeedsMove] using h

theorem txIdle_answered {s : State} {f : Fin 4} (l : Link) (r : Req) (tag : Byte) (st : Status) (p : List Byte)
    (h : (feed s f).flight = none) : TxIdle (answered l r tag st p s) f :=
  txIdle_of_flight _ f (by rw [feed_answered, h])

/-! ### Set Feed -/

section SetFeed
variable (tag : Byte) (s : State) {f : Fin 4} {a : SetFeedArgs} {au : Audience} {r : Rate}

theorem exec_setFeed (ht : Takes .reporter s) : exec (.setFeed .reporter tag (.fields a)) s =
    .next (deliver .reporter Req.setFeed.code tag (setFeed a (touchPresence .reporter s))) :=
  congrArg _ (serve_takes _ _ _ _ _ s ht rfl)

theorem setFeed_off (hf : a.feed = f.val) (hau : Audience.ofCode a.audience = some au) (hr : Rate.ofCode a.rate = some r)
    (h : (feed s f).state = .off) : setFeed a s = .done .ok (configField ((feed s f).configured au r a) ++ clampList (feedClamps a))
      (setFeedCtx f ((feed s f).configured au r a) s) := by
  simp [setFeed, feedOf_val hf, hau, hr, h]

theorem setFeed_busy (hf : a.feed = f.val) (hau : Audience.ofCode a.audience = some au) (hr : Rate.ofCode a.rate = some r)
    (h : (feed s f).state ≠ .off) : setFeed a s = refuse .busy s := by
  simp [setFeed, feedOf_val hf, hau, hr, h]

end SetFeed

/-! ### Enable Feed -/

section Enable
variable (tag : Byte) (s : State) (f : Fin 4)

theorem exec_enableFeed (ht : Takes .reporter s) : exec (.enableFeed .reporter tag (.fields f.val)) s =
    .next (deliver .reporter Req.enableFeed.code tag (enableFeed f.val (touchPresence .reporter s))) :=
  congrArg _ (serve_takes _ _ _ _ _ s ht rfl)

theorem enableFeed_off (h : (feed s f).state = .off) : enableFeed f.val s =
    .done .ok (be 4 (feed (enabled f s) f).lowWater ++ be 1 (feed (enabled f s) f).state.code) (choose f (enabled f s)) := by
  simp [enableFeed, feedOf_val rfl, h]

/-- The context of a feed just enabled, but for its health code (R160). -/
def enabledFeed : Feed := { feed s f with
  lowWater := enableLow (feed s f).backfill s.lines
  announced := 0, withheld := false, outOfStep := false
  seen := s.pins.rdy.get f
  state := if holdActive s f then .held else .live
  idleTimer := some (s.now + (feed s f).idleInterval), idleDue := false, stallTimer := none }

theorem feed_enabled : feed (enabled f s) f = { enabledFeed s f with health := healthOf (enabledFeed s f) } := by
  rw [enabled, feed_refreshHealth, if_pos rfl, feed_setFeedCtx_self]
  rfl

theorem enabled_sameFeed : SameFeed (enabledFeed s f) (feed (choose f (enabled f s)) f) := by
  have h := (choose_kept f (enabled f s)).2 f
  rwa [feed_enabled] at h

theorem enabledFeed_code : (enabledFeed s f).state.code = if holdActive s f = true then 2 else 1 := by
  unfold enabledFeed
  cases holdActive s f <;> rfl

theorem oldestHeld_eq (ls : LineStore) : oldestHeld ls = (ls.records.head?.map (·.serial)).getD (ls.counter + 1) := by
  unfold oldestHeld
  split <;> simp [*]

theorem oldestUnsettled_eq (ls : LineStore) : oldestUnsettled ls =
    ((ls.records.find? (fun l => l.state = .opn || l.state = .closed)).map (·.serial)).getD (ls.counter + 1) := by
  unfold oldestUnsettled
  split <;> simp [*]

theorem enabledFeed_touchPresence : enabledFeed (touchPresence .reporter s) f = enabledFeed s f := by
  simp [enabledFeed, feed_touchPresence, holdActive_touchPresence]

end Enable

/-! ### Disable Feed -/

theorem stateField_off : be 1 FeedState.off.code = [0#8] := by decide

section Disable
variable (tag : Byte) (s : State) (f : Fin 4)

theorem exec_disableFeed (ht : Takes .reporter s) : exec (.disableFeed .reporter tag (.fields f.val)) s =
    .next (deliver .reporter Req.disableFeed.code tag (disableFeed f.val (touchPresence .reporter s))) :=
  congrArg _ (serve_takes _ _ _ _ _ s ht rfl)

theorem disableFeed_enabled (h : (feed s f).state.enabled = true) :
    disableFeed f.val s = .done .ok (be 1 (feed (disabled f s) f).state.code) (disabled f s) := by
  have hne : ¬((feed s f).state = .off ∨ (feed s f).state = .stopping) := by
    rintro (e | e) <;> rw [e] at h <;> exact absurd h (by decide)
  simp [disableFeed, feedOf_val rfl, hne]

/-- At its boundary an enabled feed becomes OFF at once (R161). -/
theorem disabled_atBoundary (h : (feed s f).state.enabled = true) (hfl : (feed s f).flight = none) : disabled f s = becomeOff f s := by
  have hne : (feed s f).state ≠ .test := fun e => by rw [e] at h; exact absurd h (by decide)
  simp [disabled, hfl, hne]

theorem disabled_inFlight (fr : FeedFrame) (hfl : (feed s f).flight = some fr) : disabled f s = becomeStopping f s := by
  simp [disabled, hfl]

theorem feed_becomeStopping : (feed (becomeStopping f s) f).state = .stopping ∧
    (feed (becomeStopping f s) f).flight = (feed s f).flight := by
  rw [becomeStopping, feed_refreshHealth, if_pos rfl, feed_setFeedCtx_self]
  exact ⟨rfl, rfl⟩

end Disable

/-! ### Test Feed -/

section Test
variable (tag : Byte) (s : State) (f : Fin 4) (n : Nat)

theorem exec_testFeed (a : TestFeedArgs) (ht : Takes .reporter s) : exec (.testFeed .reporter tag (.fields a)) s =
    .next (deliver .reporter Req.testFeed.code tag (testFeed a (touchPresence .reporter s))) :=
  congrArg _ (serve_takes _ _ _ _ _ s ht rfl)

theorem testFeed_busy (h : (feed s f).state ≠ .off) : testFeed { feed := f.val, count := n } s = refuse .busy s := by
  simp [testFeed, feedOf_val rfl, h]

/-- A count within 1 to 255 is taken as it stands (R177). -/
theorem testFeed_off (h : (feed s f).state = .off) (h1 : 1 ≤ n) (h2 : n ≤ 255) :
    testFeed { feed := f.val, count := n } s = .done .ok [0#8] (choose f (beginTest f n s)) := by
  have hc : clampTo 1 255 n = n := by
    unfold clampTo
    rw [if_neg (by omega), if_neg (by omega)]
  have hf : (clampField 1 255 n).2 = false := by
    simp only [clampField, Bool.or_eq_false_iff, decide_eq_false_iff_not]
    omega
  have hbyte : clampList [false, false] = [0#8] := by decide
  simp [testFeed, feedOf_val rfl, h, hc, hf, hbyte]

/-- The record of a test that begins: the sequence stands at its seed (R177, R178). -/
def testBegun : TestRec := { asked := n, sent := 0, outcome := .running, seq := 0x1FF#9 }

theorem feed_beginTest : feed (beginTest f n s) f = { feed s f with
    state := .test, test := some (testBegun n), health := .testing } := by
  rw [beginTest, feed_refreshHealth, if_pos rfl, feed_setFeedCtx_self]
  rfl

/-- A test that has frames to send chooses a TEST frame (R177). -/
theorem choose_test (r : TestRec) (hst : (feed s f).state = .test) (hfl : (feed s f).flight = none)
    (hr : (feed s f).test = some r) (hlt : r.sent < r.asked) : choose f s = actOn f .test s := by
  simp [choose, hst, hfl, hr, hlt]

theorem choose_beginTest (hfl : (feed s f).flight = none) (h1 : 1 ≤ n) :
    choose f (beginTest f n s) = actOn f .test (beginTest f n s) := by
  refine choose_test _ f (testBegun n) ?_ ?_ ?_ h1 <;> rw [feed_beginTest]
  exact hfl

/-- A TEST frame names no line (R178). -/
theorem beginTest_lines : (actOn f .test (beginTest f n s)).lines = s.lines := by
  unfold actOn
  split
  · rw [start_test f _ (testBegun n) (by rw [feed_beginTest]), setFeedCtx_lines]
    simp
  · simp

theorem beginTest_ready (h : s.pins.rdy.get f = true) :
    (feed (actOn f .test (beginTest f n s)) f).flight = some (.test (testBytes 64 0x1FF#9).1) := by
  rw [actOn_ready f (beginTest f n s) _ (by simpa using h), start_test f _ (testBegun n) (by rw [feed_beginTest]), feed_setFeedCtx_self]
  rfl

theorem beginTest_waiting (h : s.pins.rdy.get f = false) :
    (feed (actOn f .test (beginTest f n s)) f).test = some (testBegun n) ∧
      (feed (actOn f .test (beginTest f n s)) f).flight = (feed s f).flight := by
  rw [actOn_waiting f (beginTest f n s) _ (by simpa using h), startStall, feed_setFeedCtx_self, feed_beginTest]
  exact ⟨rfl, rfl⟩

end Test

/-- Settles O44: each request on the state as the frame's arrival leaves it. -/
theorem feedRequestsChangeTheFeed : Obligations.FeedRequestsChangeTheFeed := by
  intro tag s f ht
  have hfeed := feed_touchPresence .reporter s f
  refine ⟨fun a au r hf hau hr hoff => ?_, fun a au r hf hau hr hoff => ?_, fun hoff hfl => ?_, fun hen hfl => ?_, fun fr hst hfl => ?_,
    fun n hoff hfl h1 h2 => ?_, fun hoff n => ?_⟩
  · rw [exec_setFeed tag s ht, setFeed_off _ hf hau hr (by rwa [hfeed]), deliver_done, hfeed]
    exact ⟨_, rfl⟩
  · rw [exec_setFeed tag s ht, setFeed_busy _ hf hau hr (by rwa [hfeed]), deliver_refuse]
  · have hsame := enabled_sameFeed (touchPresence .reporter s) f
    rw [enabledFeed_touchPresence] at hsame
    rw [exec_enableFeed tag s f ht, enableFeed_off _ f (by rwa [hfeed]), deliver_done]
    refine ⟨_, rfl, ?_, ?_, ?_, ?_, fun o u low ho hu hlow => ?_, answered_onlyFeeds _ _ _ _ _ (by simp [OnlyFeedsMove])⟩
    · rw [feed_answered, hsame.state]
      rfl
    · rw [feed_answered, hsame.seen]
      rfl
    · rw [feed_answered, hsame.outOfStep]
      rfl
    · rw [feed_answered, hsame.idleTimer]
      rfl
    · have hlow' : (enabledFeed s f).lowWater = low := by
        rw [hlow, hu, ho, ← oldestUnsettled_eq, ← oldestHeld_eq]
        rfl
      rw [feed_enabled, enabledFeed_touchPresence, ← hlow', ← enabledFeed_code]
      rfl
  · obtain ⟨low, hf⟩ := feed_becomeOff f (touchPresence .reporter s)
    rw [exec_disableFeed tag s f ht, disableFeed_enabled _ f (by rwa [hfeed]),
      disabled_atBoundary _ f (by rwa [hfeed]) (by rwa [hfeed]), deliver_done, hf]
    refine ⟨_, rfl, ?_, ?_, ?_, ?_, ?_, txIdle_answered _ _ _ _ _ (by rw [hf]; rfl), ?_, ⟨_, rfl, rfl, ?_⟩,
      answered_onlyFeeds _ _ _ _ _ (by simp [OnlyFeedsMove])⟩
    · rw [feed_answered, hf]
      rfl
    · rw [feed_answered, hf]
      rfl
    · rw [feed_answered, hf]
      rfl
    · rw [feed_answered, hf]
      rfl
    · rw [feed_answered, hf, hfeed]
      rfl
    · intro l hl
      exact becomeOff_perLine f (touchPresence .reporter s) l (by simpa using hl)
    · exact stateField_off
  · have hen : (feed s f).state.enabled = true := by rcases hst with e | e <;> rw [e] <;> rfl
    obtain ⟨hstop, hflight⟩ := feed_becomeStopping (touchPresence .reporter s) f
    rw [exec_disableFeed tag s f ht, disableFeed_enabled _ f (by rwa [hfeed]), disabled_inFlight _ f fr (by rwa [hfeed]), deliver_done]
    refine ⟨_, rfl, ?_, ?_, by simp, answered_onlyFeeds _ _ _ _ _ (by simp [OnlyFeedsMove])⟩
    · rw [feed_answered, hstop]
    · rw [feed_answered, hflight, hfeed, hfl]
  · have hchoice := choose_beginTest (touchPresence .reporter s) f n (by rwa [hfeed]) h1
    have hsame := (choose_kept f (beginTest f n (touchPresence .reporter s))).2 f
    rw [hchoice, feed_beginTest] at hsame
    rw [exec_testFeed tag s _ ht, testFeed_off _ f n (by rwa [hfeed]) h1 h2, deliver_done, hchoice]
    refine ⟨_, rfl, ?_, fun hr => ?_, fun hr => ?_, ⟨_, rfl, rfl, rfl⟩, ?_, answered_onlyFeeds _ _ _ _ _ (by simp [OnlyFeedsMove])⟩
    · rw [feed_answered, hsame.state]
    · obtain ⟨htest, hflight⟩ := beginTest_waiting (touchPresence .reporter s) f n (by simpa using hr)
      rw [feed_answered, htest, hflight, hfeed, hfl]
      exact ⟨rfl, rfl⟩
    · rw [feed_answered, beginTest_ready (touchPresence .reporter s) f n (by simpa using hr)]
    · simp [beginTest_lines]
  · rw [exec_testFeed tag s _ ht, testFeed_busy _ f n (by rwa [hfeed]), deliver_refuse]

end Sys2Proof.Machine

/-! A frame that completes (O42): a LIVE feed's choice with each frame it can yield, the end of a test, and the end of STOPPING. -/

namespace Sys2Proof.Machine

/-! ### The lines after a frame's start (R166) -/

section Recorded
variable (f : Fin 4) (s : State) (l : Line)

theorem findLine_serial {rs : List Line} {n : Nat} {x : Line} (h : findLine rs n = some x) : x ∈ rs ∧ x.serial = n :=
  ⟨List.mem_of_find?_eq_some h, by simpa using List.find?_some h⟩

theorem findLine_writeSent {n : Nat} (h : l.serial = n) : findLine (writeSent f l s).lines.records n =
    (findLine s.lines.records n).map (fun x => { x with sent := x.sent.set f l.revision }) := by
  subst h
  show findLine (updateLine l.serial (fun x => { x with sent := x.sent.set f l.revision }) s.lines.records) l.serial = _
  rw [findLine_updateLine l.serial l.serial (fun x => { x with sent := x.sent.set f l.revision }) fun _ => rfl]
  cases hx : findLine s.lines.records l.serial with
  | none => rfl
  | some x => simp [(findLine_serial hx).2]

/-- A LINE or an UPDATE that starts is recorded in the line's record (R166). -/
theorem start_text_lines (d : Due) (hd : d = .line l ∨ ∃ queued, d = .update l queued) :
    (startFrame f d s).lines = (writeSent f l s).lines := by
  rcases hd with rfl | ⟨queued, rfl⟩
  · simp [startFrame, writeSent]
  · rfl

/-- A WITHDRAW that starts is recorded in the line's record, where that stays in the store (R134, R166). -/
theorem start_withdraw_recorded (x : Line) (h : findLine (startFrame f (.withdraw l) s).lines.records l.serial = some x) :
    x.withdrawSent.get f = true := by
  obtain ⟨hmem, hser⟩ := findLine_serial h
  have hmem' : x ∈ updateLine l.serial (fun x => { x with withdrawSent := x.withdrawSent.set f true }) s.lines.records :=
    List.mem_of_mem_filter hmem
  obtain ⟨y, -, rfl⟩ := List.mem_map.1 hmem'
  have hy : y.serial = l.serial := by
    split at hser
    · exact hser
    · exact hser
  simp [hy]

end Recorded

/-! ### The choice of a LIVE feed, frame by frame -/

section Live
variable (f : Fin 4) (s : State)

/-- A choice that yields a frame and changes neither the edit queue nor what is announced. -/
theorem chooseLive_yields (d : Due) (h : liveChoice s f = ((feed s f).edits, (feed s f).announced, some d)) :
    chooseLive f s = raiseLow f (actOn f d s) := by
  have hserved : served f s = s := by
    rw [served, h]
    exact setFeedCtx_feed f s
  rw [chooseLive_due f s d (by rw [h]), hserved]

theorem chooseLive_starts (d : Due) (h : liveChoice s f = ((feed s f).edits, (feed s f).announced, some d))
    (hr : s.pins.rdy.get f = true) : chooseLive f s = raiseLow f (startFrame f d s) := by
  rw [chooseLive_yields f s d h, actOn_ready f s d hr]

/-- What a started frame leaves of its feed's context once the low water is raised: all but the low water. -/
theorem feed_chooseLive_starts (d : Due) (h : liveChoice s f = ((feed s f).edits, (feed s f).announced, some d))
    (hr : s.pins.rdy.get f = true) :
    ∃ low, feed (chooseLive f s) f = { feed (startFrame f d s) f with lowWater := low } :=
  ⟨_, by rw [chooseLive_starts f s d h hr, feed_raiseLow]⟩

theorem chooseLive_lines (d : Due) (h : liveChoice s f = ((feed s f).edits, (feed s f).announced, some d))
    (hr : s.pins.rdy.get f = true) : (chooseLive f s).lines = (startFrame f d s).lines := by
  rw [chooseLive_starts f s d h hr]
  simp

/-- With FnRDY deasserted the frame waits: the edit queue keeps its serial, and the stall timer runs (R172). -/
theorem feed_chooseLive_waits (d : Due) (h : liveChoice s f = ((feed s f).edits, (feed s f).announced, some d))
    (hr : s.pins.rdy.get f = false) : ∃ low, feed (chooseLive f s) f = { feed s f with
      stallTimer := some ((feed s f).stallTimer.getD (s.now + (feed s f).stallTime)), lowWater := low } :=
  ⟨_, by rw [chooseLive_yields f s d h, actOn_waiting f s d hr, feed_raiseLow, startStall, feed_setFeedCtx_self]⟩

/-- The first line from the low water up that needs a frame, with no edit queued (R164). -/
structure FirstDue (l : Line) : Prop where
  noEdit : (feed s f).edits = []
  first : s.lines.records.find? (fun y => decide ((feed s f).lowWater ≤ y.serial) &&
    y.needs f (feed s f).audience (feed s f).announced) = some l

variable {f s} {l : Line}

theorem FirstDue.needs (h : FirstDue f s l) : l.needs f (feed s f).audience (feed s f).announced = true := by
  have := List.find?_some h.first
  rw [Bool.and_eq_true] at this
  exact this.2

/-- The frame the choice yields is the one due at that line, whatever line the scan holds as the one below it. -/
theorem FirstDue.yields (h : FirstDue f s l) (d : Due)
    (hd : ∀ p, (s.lines.records.Pairwise (fun x y => x.serial < y.serial) → p = below s.lines.records l.serial) →
      lookAt f (feed s f).audience (feed s f).announced p l = .due d) :
    liveChoice s f = ((feed s f).edits, (feed s f).announced, some d) := by
  obtain ⟨as, bs, hrs, hlow, -, hscan⟩ := scan_to_first h.first
  have hdue := hd (lastStanding none as) fun hsort => by
    rw [hrs] at hsort ⊢
    exact (below_eq_lastStanding hsort).symm
  rw [liveChoice_scan f s h.noEdit _ (hscan.trans (scan_due bs _ _ d hlow hdue)), h.noEdit]
  rfl

/-- A visible line that needs a frame gives its LINE, or its UPDATE where it was sent before (R165). -/
theorem FirstDue.choice_visible (h : FirstDue f s l) (hw : l.state ≠ .withdrawn) (hv : visible (feed s f).audience l.cls = true) :
    liveChoice s f = ((feed s f).edits, (feed s f).announced,
      some (if l.sent.get f = 0 then .line l else .update l false)) :=
  h.yields _ fun p _ => lookAt_visible p hw hv h.needs

theorem FirstDue.choice_withdrawn (h : FirstDue f s l) (hw : l.state = .withdrawn) :
    liveChoice s f = ((feed s f).edits, (feed s f).announced, some (.withdraw l)) :=
  h.yields _ fun p _ => lookAt_withdrawn p hw h.needs

/-- Where an invisible run begins its WITHHELD is due (R165). -/
theorem FirstDue.choice_withheld (h : FirstDue f s l) (hw : l.state ≠ .withdrawn) (hv : visible (feed s f).audience l.cls = false)
    (hsort : s.lines.records.Pairwise (fun x y => x.serial < y.serial))
    (hp : ∀ p, below s.lines.records l.serial = some p →
      visible (feed s f).audience p.cls = true ∨ (feed s f).announced < p.serial) :
    liveChoice s f = ((feed s f).edits, (feed s f).announced, some (.withheld l)) :=
  h.yields _ fun p hbelow => lookAt_withheld p hw hv h.needs fun q hq => hp q (by rw [← hbelow hsort, hq])

/-- The oldest serial of the edit queue, of a line the audience may see: its UPDATE starts, the serial leaves the queue, and the record holds
the revision sent (R164, R166). -/
theorem edit_starts {n : Nat} {ns : List Nat} (hq : (feed s f).edits = n :: ns) (hl : findLine s.lines.records n = some l)
    (hv : visible (feed s f).audience l.cls = true) (hr : s.pins.rdy.get f = true) :
    (feed (chooseLive f s) f).flight = some (textFrame true l) ∧ (feed (chooseLive f s) f).edits = ns ∧
      ∃ x, findLine (chooseLive f s).lines.records n = some x ∧ x.sent.get f = l.revision ∧ x.text = l.text := by
  have hchoice := liveChoice_edit f s n ns l hq hl hv
  rw [← hq] at hchoice
  obtain ⟨low, hf⟩ := feed_chooseLive_starts f s _ hchoice hr
  rw [hf, feed_start_update, chooseLive_lines f s _ hchoice hr, start_text_lines f s l _ (.inr ⟨true, rfl⟩),
    findLine_writeSent f s l (findLine_serial hl).2, hl]
  exact ⟨rfl, by simp [hq], _, rfl, by simp, rfl⟩

/-- With FnRDY deasserted the UPDATE waits in the queue, and the stall timer runs (R172). -/
theorem edit_waits {n : Nat} {ns : List Nat} (hq : (feed s f).edits = n :: ns) (hl : findLine s.lines.records n = some l)
    (hv : visible (feed s f).audience l.cls = true) (hr : s.pins.rdy.get f = false) :
    (feed (chooseLive f s) f).flight = (feed s f).flight ∧ (feed (chooseLive f s) f).edits = (feed s f).edits ∧
      (feed (chooseLive f s) f).stallTimer = some ((feed s f).stallTimer.getD (s.now + (feed s f).stallTime)) := by
  have hchoice := liveChoice_edit f s n ns l hq hl hv
  rw [← hq] at hchoice
  obtain ⟨low, hf⟩ := feed_chooseLive_waits f s _ hchoice hr
  rw [hf]
  exact ⟨rfl, rfl, rfl⟩

/-- The LINE or UPDATE of a visible line starts: its record holds the revision sent, and a LINE beyond the announced run ends the withholding
(R165, R166). -/
theorem FirstDue.text_starts (h : FirstDue f s l) (hr : s.pins.rdy.get f = true) (hw : l.state ≠ .withdrawn)
    (hv : visible (feed s f).audience l.cls = true) :
    (feed (chooseLive f s) f).flight = some (textFrame (decide (l.sent.get f ≠ 0)) l) ∧
      (feed (chooseLive f s) f).withheld =
        (if l.sent.get f = 0 ∧ (feed s f).announced < l.serial then false else (feed s f).withheld) ∧
      (feed (chooseLive f s) f).announced = (feed s f).announced ∧
      ∀ x, findLine (chooseLive f s).lines.records l.serial = some x → x.sent.get f = l.revision := by
  have hchoice := h.choice_visible hw hv
  have hrecorded : ∀ x, findLine (chooseLive f s).lines.records l.serial = some x → x.sent.get f = l.revision := by
    intro x hx
    rw [chooseLive_lines f s _ hchoice hr, start_text_lines f s l _ (by split <;> simp), findLine_writeSent f s l rfl,
      Option.map_eq_some_iff] at hx
    obtain ⟨y, -, rfl⟩ := hx
    simp
  obtain ⟨low, hf⟩ := feed_chooseLive_starts f s _ hchoice hr
  rw [hf]
  by_cases hz : l.sent.get f = 0
  · rw [if_pos hz, feed_start_line]
    exact ⟨by simp [Feed.lineStarted, hz], by simp [Feed.lineStarted, hz], rfl, hrecorded⟩
  · rw [if_neg hz, feed_start_update]
    exact ⟨by simp [hz], by simp [hz], rfl, hrecorded⟩

/-- The WITHDRAW of a WITHDRAWN line starts, and is recorded in its record (R166). -/
theorem FirstDue.withdraw_starts (h : FirstDue f s l) (hr : s.pins.rdy.get f = true) (hw : l.state = .withdrawn) :
    (feed (chooseLive f s) f).flight = some (.withdraw l.serial l.page l.line) ∧
      ∀ x, findLine (chooseLive f s).lines.records l.serial = some x → x.withdrawSent.get f = true := by
  have hchoice := h.choice_withdrawn hw
  obtain ⟨low, hf⟩ := feed_chooseLive_starts f s _ hchoice hr
  obtain ⟨low', hf'⟩ := feed_start_withdraw f s l
  rw [hf, hf', chooseLive_lines f s _ hchoice hr]
  exact ⟨rfl, start_withdraw_recorded f s l⟩

/-- The WITHHELD of an invisible run starts, and announces the line (R165, R166). -/
theorem FirstDue.withheld_starts (h : FirstDue f s l) (hr : s.pins.rdy.get f = true) (hw : l.state ≠ .withdrawn)
    (hv : visible (feed s f).audience l.cls = false) (hsort : s.lines.records.Pairwise (fun x y => x.serial < y.serial))
    (hp : ∀ p, below s.lines.records l.serial = some p →
      visible (feed s f).audience p.cls = true ∨ (feed s f).announced < p.serial) :
    (feed (chooseLive f s) f).flight = some (.withheld l.serial l.page l.line l.cls) ∧
      (feed (chooseLive f s) f).announced = l.serial ∧ (feed (chooseLive f s) f).withheld = true := by
  obtain ⟨low, hf⟩ := feed_chooseLive_starts f s _ (h.choice_withheld hw hv hsort hp) hr
  rw [hf, feed_start_withheld]
  exact ⟨rfl, rfl, rfl⟩

/-- What a frame's start leaves announced: a WITHHELD announces its line (R166). -/
theorem startFrame_announced (d : Due) : (∀ x, d ≠ .withheld x) → (feed (startFrame f d s) f).announced = (feed s f).announced := by
  intro hd
  cases d with
  | update l queued => rw [feed_start_update]
  | line l => rw [feed_start_line]; rfl
  | withdraw l =>
    obtain ⟨low, h⟩ := feed_start_withdraw f s l
    rw [h]
  | withheld l => exact absurd rfl (hd l)
  | idle => rw [start_idle f s _ rfl, feed_setFeedCtx_self]
  | test =>
    cases h : (feed s f).test with
    | none => simp [startFrame, h]
    | some r => rw [start_test f s r h, feed_setFeedCtx_self]

/-- A choice leaves at least as much announced as its scan does. -/
theorem chooseLive_announced (hr : s.pins.rdy.get f = true)
    (hx : ∀ x, (liveChoice s f).2.2 = some (.withheld x) → (liveChoice s f).2.1 < x.serial) :
    (liveChoice s f).2.1 ≤ (feed (chooseLive f s) f).announced := by
  have hserved : (feed (served f s) f).announced = (liveChoice s f).2.1 := by rw [served, feed_setFeedCtx_self]
  cases hd : (liveChoice s f).2.2 with
  | none =>
    rw [chooseLive_none f s hd, feed_raiseLow]
    exact hserved.ge
  | some d =>
    rw [chooseLive_due f s d hd, feed_raiseLow, actOn_ready f (served f s) d hr]
    by_cases hw : ∃ x, d = .withheld x
    · obtain ⟨x, rfl⟩ := hw
      rw [feed_start_withheld]
      exact (hx x hd).le
    · exact ((startFrame_announced d fun x e => hw ⟨x, e⟩).trans hserved).ge

/-- A line covered by an announced run is announced by the choice (R165). -/
theorem FirstDue.covered (h : FirstDue f s l) (hi : (feed s f).idleDue = false) (hr : s.pins.rdy.get f = true)
    (hw : l.state ≠ .withdrawn) (hv : visible (feed s f).audience l.cls = false)
    (hsort : s.lines.records.Pairwise (fun x y => x.serial < y.serial)) (p : Line) (hp : below s.lines.records l.serial = some p)
    (hpv : visible (feed s f).audience p.cls = false) (hann : p.serial ≤ (feed s f).announced) :
    l.serial ≤ (feed (chooseLive f s) f).announced := by
  obtain ⟨as, bs, hrs, hlow, -, hscan⟩ := scan_to_first h.first
  have hbelow : lastStanding none as = some p := by
    rw [hrs] at hsort hp
    rw [← below_eq_lastStanding hsort, hp]
  rw [hbelow, scan_cover bs _ _ hlow (lookAt_cover p hw hv h.needs hpv hann)] at hscan
  have hchoice := liveChoice_scan f s h.noEdit _ hscan
  obtain ⟨hle, hx⟩ := scan_announced (f := f) (a := (feed s f).audience) (low := (feed s f).lowWater) bs
    (if l.state = .withdrawn then some p else some l) l.serial
  refine le_trans ?_ (chooseLive_announced hr fun x hd => ?_)
  · rw [hchoice]
    exact hle
  · rw [hchoice] at hd ⊢
    exact hx x (by simpa [hi] using hd)

end Live

/-! ### The frame in flight completes -/

section Done
variable (f : Fin 4) (s : State)

/-- A LIVE or HELD feed at the boundary its frame has brought it to: the idle timer restarted (R162, R168). -/
def landed : State := setFeedCtx f { feed s f with
  flight := none, idleTimer := some (s.now + (feed s f).idleInterval), idleDue := false } s

theorem feed_landed : feed (landed f s) f = { feed s f with
    flight := none, idleTimer := some (s.now + (feed s f).idleInterval), idleDue := false } := feed_setFeedCtx_self f _ s

/-- The frame gone from the feed, with nothing else changed. -/
def flightGone : State := setFeedCtx f { feed s f with flight := none } s

theorem feed_flightGone : feed (flightGone f s) f = { feed s f with flight := none } := feed_setFeedCtx_self f _ s

theorem exec_frameComplete_none (h : (feed s f).flight = none) : exec (.frameComplete f) s = .next s := by
  show Host.Outcome.next (frameDone f s) = _
  simp [frameDone, h]

theorem frameDone_chooses (hfl : (feed s f).flight ≠ none) (hst : (feed s f).state = .live ∨ (feed s f).state = .held) :
    frameDone f s = choose f (landed f s) := by
  rcases hst with hst | hst <;> simp [frameDone, landed, hfl, hst]

theorem frameDone_stopping (hfl : (feed s f).flight ≠ none) (hst : (feed s f).state = .stopping) (ht : testRuns (feed s f) = false) :
    frameDone f s = becomeOff f (flightGone f s) := by
  simp [frameDone, flightGone, hfl, hst, ht]

theorem frameDone_test (r : TestRec) (hfl : (feed s f).flight ≠ none) (hst : (feed s f).state = .test)
    (hr : (feed s f).test = some r) (hle : r.asked ≤ r.sent) : frameDone f s = endTest f .complete (flightGone f s) := by
  simp [frameDone, flightGone, hfl, hst, testSpent, hr, hle]

theorem frameDone_onlyFeeds : OnlyFeedsMove s (frameDone f s) := by
  unfold frameDone
  dsimp only
  repeat' split
  all_goals simp [OnlyFeedsMove]

theorem frameDone_live (hfl : (feed s f).flight ≠ none) (hst : (feed s f).state = .live) :
    frameDone f s = chooseLive f (landed f s) := by
  rw [frameDone_chooses f s hfl (.inl hst), choose_live f _ (by rw [feed_landed, hst]) (by rw [feed_landed])]

/-- The first line due is the same with the frame landed. -/
theorem FirstDue.landed {l : Line} (hq : (feed s f).edits = [])
    (h : s.lines.records.find? (fun y => decide ((feed s f).lowWater ≤ y.serial) &&
      y.needs f (feed s f).audience (feed s f).announced) = some l) : FirstDue f (landed f s) l := by
  constructor
  · rw [feed_landed, hq]
  · rw [feed_landed]
    exact h

end Done

/-- Settles O42: the feed's state tells what the frame's end brings, and for a LIVE feed the choice is told frame by frame. -/
theorem frameCompletionReachesTheBoundary : Obligations.FrameCompletionReachesTheBoundary := by
  intro s f
  refine ⟨exec_frameComplete_none f s, fun fr hfr => ?_⟩
  have hfl : (feed s f).flight ≠ none := by simp [hfr]
  refine ⟨frameDone f s, rfl, fun hst => ?_, fun c due hc hlive hdue => ?_, fun hst htest => ?_, fun r hst hr hle => ?_,
    frameDone_onlyFeeds f s⟩
  · have hkept := (choose_kept f (landed f s)).2 f
    rw [frameDone_chooses f s hfl hst, hkept.idleTimer, hkept.state, feed_landed]
    exact ⟨rfl, rfl⟩
  · subst hc
    obtain rfl : due = Line.needs f (feed s f).audience (feed s f).announced := hdue
    have hland := feed_landed f s
    rw [frameDone_live f s hfl hlive]
    refine ⟨fun n ns l hq hl hv => ?_, fun l hq hfirst hr => ?_, fun hq hnone => ?_⟩
    · have hq' : (feed (landed f s) f).edits = n :: ns := by rw [hland, hq]
      have hv' : visible (feed (landed f s) f).audience l.cls = true := by rw [hland]; exact hv
      refine ⟨edit_starts hq' hl hv', fun hr => ?_⟩
      have hwaits := edit_waits hq' hl hv' hr
      rw [hland] at hwaits
      exact hwaits
    · have hfd := FirstDue.landed f s hq hfirst
      refine ⟨fun hw hv => ?_, hfd.withdraw_starts hr, fun hw hv hsort hp => ?_, fun p hw hv hsort hp hpv hann => ?_⟩
      · have htext := hfd.text_starts hr hw (by rw [hland]; exact hv)
        rw [hland] at htext
        exact htext
      · exact hfd.withheld_starts hr hw (by rw [hland]; exact hv) hsort (by rw [hland]; exact hp)
      · exact hfd.covered (by rw [hland]) hr hw (by rw [hland]; exact hv) hsort p hp (by rw [hland]; exact hpv) (by rw [hland]; exact hann)
    · have hquiet : (feed (landed f s) f).quiet f (landed f s).lines.records := by
        rw [hland]
        exact ⟨hq, fun y hy hlow => by simpa [hlow] using List.find?_eq_none.1 hnone y hy⟩
      rw [chooseLive_quiet f _ hquiet, if_neg (by rw [hland]; simp), feed_raiseLow, raisedLow_quiet f _ _ hquiet, hland]
      exact ⟨rfl, rfl, rfl, rfl, rfl⟩
  · obtain ⟨low, hf⟩ := feed_becomeOff f (flightGone f s)
    rw [frameDone_stopping f s hfl hst htest]
    refine ⟨by rw [hf]; rfl, by rw [hf]; rfl, txIdle_of_flight _ f (by rw [hf]; rfl), by rw [hf], becomeOff_perLine f _⟩
  · obtain ⟨low, hf⟩ := feed_endTest f (flightGone f s) .complete r (by rw [feed_flightGone, hr])
    rw [frameDone_test f s r hfl hst hr hle]
    exact ⟨by rw [hf]; rfl, by rw [hf], endTest_posted f _ .complete⟩

end Sys2Proof.Machine

/-! The Mark Table (chapter 9): its order under a new record, the id a new record takes, what a mark set or removed changes, and what the
notices of the Line Store leave of each record. -/

namespace Sys2Proof.Machine

/-! ### The rules of the table (R187) -/

/-- The rules the Mark Table holds to, on its records (R187). -/
def TableSound (ms : List Mark) : Prop :=
  ms.length ≤ 64 ∧ ms.Pairwise (fun a b => a.serial < b.serial ∨ (a.serial = b.serial ∧ a.id < b.id)) ∧
    ms.Pairwise (fun a b => a.id ≠ b.id) ∧ ms.Pairwise (fun a b => ¬(a.owner = b.owner ∧ a.serial = b.serial ∧ a.kind = b.kind))

theorem marksSound_iff (s : State) : MarksSound s ↔ TableSound s.marks.records := Iff.rfl

/-- A record but for what an edit and a reclaim change in it (R193, R194). -/
def Mark.named (m : Mark) : Mark := { m with detached := false, revised := false }

/-- The rules of the table are about nothing that an edit or a reclaim changes in a record. -/
theorem tableSound_named (ms : List Mark) : TableSound (ms.map Mark.named) ↔ TableSound ms := by
  simp [TableSound, List.pairwise_map, Mark.named]

/-- With some records gone the rules still hold. -/
theorem TableSound.sublist {ms ns : List Mark} (h : TableSound ms) (hsub : ns.Sublist ms) : TableSound ns := by
  obtain ⟨hlen, horder, hids, hkinds⟩ := h
  exact ⟨hsub.length_le.trans hlen, horder.sublist hsub, hids.sublist hsub, hkinds.sublist hsub⟩

theorem tableSound_nil : TableSound [] := by simp [TableSound]

/-! ### A new record put in its place -/

/-- The table order as a relation of records (R187). -/
theorem markBefore_iff (a b : Mark) : markBefore a b = true ↔ a.serial < b.serial ∨ (a.serial = b.serial ∧ a.id < b.id) := by
  simp [markBefore]

theorem insertMark_eq_orderedInsert (m : Mark) (ms : List Mark) :
    insertMark m ms = ms.orderedInsert (fun a b => markBefore a b = true) m := by
  induction ms with
  | nil => rfl
  | cons x xs ih => rw [insertMark, List.orderedInsert_cons, ih]

theorem insertMark_perm (m : Mark) (ms : List Mark) : (insertMark m ms).Perm (m :: ms) :=
  insertMark_eq_orderedInsert m ms ▸ List.perm_orderedInsert _ m ms

/-- Among records of other ids the table's order holds with the new one in its place (R187). -/
theorem insertMark_ordered (m : Mark) (ms : List Mark) (hid : ∀ x ∈ ms, x.id ≠ m.id)
    (h : ms.Pairwise (fun a b => a.serial < b.serial ∨ (a.serial = b.serial ∧ a.id < b.id))) :
    (insertMark m ms).Pairwise (fun a b => a.serial < b.serial ∨ (a.serial = b.serial ∧ a.id < b.id)) := by
  induction ms with
  | nil => simp [insertMark]
  | cons x xs ih =>
    obtain ⟨hx, hxs⟩ := List.pairwise_cons.1 h
    have hne := hid x List.mem_cons_self
    unfold insertMark
    split
    · next hb =>
      rw [markBefore_iff] at hb
      refine List.pairwise_cons.2 ⟨fun y hy => ?_, h⟩
      rcases List.mem_cons.1 hy with rfl | hy
      · exact hb
      · have := hx y hy
        omega
    · next hb =>
      rw [markBefore_iff] at hb
      refine List.pairwise_cons.2 ⟨fun y hy => ?_, ih (fun y hy => hid y (List.mem_cons_of_mem x hy)) hxs⟩
      rcases List.mem_cons.1 ((insertMark_perm m xs).subset hy) with rfl | hy
      · omega
      · exact hx y hy

/-- A record under an id and of an owner, serial and kind that no other has joins a table with room (R187, R189). -/
theorem TableSound.insert {m : Mark} {ms : List Mark} (h : TableSound ms) (hroom : ms.length < 64) (hid : ∀ x ∈ ms, x.id ≠ m.id)
    (hkind : ∀ x ∈ ms, ¬(x.owner = m.owner ∧ x.serial = m.serial ∧ x.kind = m.kind)) : TableSound (insertMark m ms) := by
  obtain ⟨-, horder, hids, hkinds⟩ := h
  have hperm := insertMark_perm m ms
  refine ⟨hperm.length_eq ▸ hroom, insertMark_ordered m ms hid horder, ?_, ?_⟩
  · exact (hperm.pairwise_iff Ne.symm).2 (List.pairwise_cons.2 ⟨fun x hx => (hid x hx).symm, hids⟩)
  · refine (hperm.pairwise_iff fun hab hba => hab ⟨hba.1.symm, hba.2.1.symm, hba.2.2.symm⟩).2
      (List.pairwise_cons.2 ⟨fun x hx hsame => hkind x hx ⟨hsame.1.symm, hsame.2.1.symm, hsame.2.2.symm⟩, hkinds⟩)

/-! ### The id a new record takes -/

theorem idHeld_iff (ms : List Mark) (n : Nat) : idHeld ms n = true ↔ ∃ m ∈ ms, m.id = n := by simp [idHeld]

theorem idAfter_range (n : Nat) : 1 ≤ idAfter n ∧ idAfter n ≤ 255 := by
  unfold idAfter
  split <;> omega

/-- Counting on from an id goes around the ids 1 to 255 (R187). -/
theorem idAfter_iterate (a i : Nat) (h1 : 1 ≤ a) (h2 : a ≤ 255) : idAfter^[i] a = (a - 1 + i) % 255 + 1 := by
  induction i with
  | zero =>
    show a = _
    omega
  | succ i ih =>
    rw [Function.iterate_succ_apply', ih, idAfter]
    split <;> omega

/-- Where the count ends on an id that is held, every id counted was held. -/
theorem idHeld_of_freeId_held {ms : List Mark} {k n i : Nat} (h : idHeld ms (freeId ms k n) = true) (hi : i < k) :
    idHeld ms (idAfter^[i] (idAfter n)) = true := by
  induction k generalizing n i with
  | zero => omega
  | succ k ih =>
    unfold freeId at h
    split at h
    · next hheld =>
      cases i with
      | zero => exact hheld
      | succ i => exact ih (n := idAfter n) (i := i) h (by omega)
    · next hfree => exact absurd h hfree

/-- A table that holds every id from 1 to 255 has 255 records. -/
theorem length_of_all_held (ms : List Mark) (h : ∀ n, 1 ≤ n → n ≤ 255 → idHeld ms n = true) : 255 ≤ ms.length := by
  have hsub : Finset.Icc 1 255 ⊆ (ms.map (·.id)).toFinset := fun n hn => by
    obtain ⟨h1, h2⟩ := Finset.mem_Icc.1 hn
    simpa using (idHeld_iff ms n).1 (h n h1 h2)
  calc 255 = (Finset.Icc 1 255).card := by simp
    _ ≤ (ms.map (·.id)).toFinset.card := Finset.card_le_card hsub
    _ ≤ (ms.map (·.id)).length := List.toFinset_card_le _
    _ = ms.length := List.length_map _

/-- No record of a table with room holds the id a new one takes (R187). -/
theorem newId_fresh (t : MarkTable) (hroom : t.records.length < 64) : ∀ m ∈ t.records, m.id ≠ newId t := by
  intro m hm he
  have hheld : idHeld t.records (freeId t.records 255 t.lastId) = true := (idHeld_iff _ _).2 ⟨m, hm, he⟩
  have hall : ∀ n, 1 ≤ n → n ≤ 255 → idHeld t.records n = true := fun n h1 h2 => by
    obtain ⟨ha1, ha2⟩ := idAfter_range t.lastId
    have hcounted := idHeld_of_freeId_held hheld (i := (n + 255 - idAfter t.lastId) % 255) (Nat.mod_lt _ (by omega))
    rw [idAfter_iterate _ _ ha1 ha2] at hcounted
    rwa [show (idAfter t.lastId - 1 + (n + 255 - idAfter t.lastId) % 255) % 255 + 1 = n by omega] at hcounted
  have := length_of_all_held t.records hall
  omega

/-! ### A mark set and a mark removed -/

section Marking
variable (l : Link) (m : Mark) (s : State)

theorem applyMark_marks : (applyMark m s).marks = { records := insertMark m s.marks.records, lastId := m.id } := by simp [applyMark]

theorem applyUnmark_marks :
    (applyUnmark l m s).marks = { s.marks with records := s.marks.records.filter (fun x => x.id ≠ m.id) } := by
  simp [applyUnmark]

theorem applyMark_session (h : s.session.st ≠ .closing) : (applyMark m s).session = s.session := by
  simp [applyMark, append_session_eq, h]

theorem applyUnmark_session (h : s.session.st ≠ .closing) : (applyUnmark l m s).session = s.session := by
  have hkept := append_session_eq (unmarkEntry m (setMarks (s.marks.records.filter (fun x => x.id ≠ m.id)) s))
    (setMarks (s.marks.records.filter (fun x => x.id ≠ m.id)) s) h
  simpa [applyUnmark] using hkept

/-- A mark set is told on the link that is not its owner's (R195). -/
theorem applyMark_told : latchHolds .markChanged ((applyMark m s).link (otherLink m.owner)).attn = true := by
  simp [applyMark, post]

/-- A mark removed is told on the other link (R195). -/
theorem applyUnmark_told : latchHolds .markChanged ((applyUnmark l m s).link (otherLink l)).attn = true := by
  simp [applyUnmark, post]

/-- A mark set asks for its MARK entry (R196). -/
theorem applyMark_joins : EntryJoins (markEntry m s) s (applyMark m s) :=
  (append_joins (markEntry m s) { s with marks := { records := insertMark m s.marks.records, lastId := m.id } }).congr rfl
    (by simp [applyMark, markEntry])

/-- A mark removed asks for its UNMARK entry (R196). -/
theorem applyUnmark_joins : EntryJoins (unmarkEntry m s) s (applyUnmark l m s) :=
  (append_joins (unmarkEntry m s) (setMarks (s.marks.records.filter (fun x => x.id ≠ m.id)) s)).congr rfl
    (by simp [applyUnmark, unmarkEntry])

end Marking

/-! ### Edits, reclaims and what places a unit -/

/-- The records of a table, but for what the notices of the Line Store change in them. -/
def markNames (s : State) : List Mark := s.marks.records.map Mark.named

theorem markNames_of_eq {s t : State} (h : t.marks = s.marks) : markNames t = markNames s := by rw [markNames, markNames, h]

/-- Where only an edit or a reclaim has reached the records, the table's rules hold on. -/
theorem MarksSound.of_names {s t : State} (h : markNames t = markNames s) (hs : MarksSound s) : MarksSound t := by
  rw [marksSound_iff, ← tableSound_named] at *
  exact (congrArg TableSound h).mpr hs

/-- The notice of a line's edit (R193). -/
@[simp] theorem reviseMarks_names (n : Nat) (s : State) : markNames (reviseMarks n s) = markNames s := by
  simp only [markNames, reviseMarks, tellOwners_keeps, setMarks_marks, List.map_map]
  refine List.map_congr_left fun m _ => ?_
  dsimp only [Function.comp_apply]
  split <;> rfl

/-- The notice of a line's reclaim (R194). -/
@[simp] theorem detachMarks_names (n : Nat) (s : State) : markNames (detachMarks n s) = markNames s := by
  simp only [markNames, detachMarks, tellOwners_keeps, setMarks_marks, List.map_map]
  refine List.map_congr_left fun m _ => ?_
  dsimp only [Function.comp_apply]
  split <;> rfl

@[simp] theorem reclaimFeeds_names (rs : List Line) (l : Line) (s : State) : markNames (reclaimFeeds rs l s) = markNames s :=
  markNames_of_eq (by simp)

@[simp] theorem liftLowWaters_names (s : State) : markNames (liftLowWaters s) = markNames s := markNames_of_eq (by simp)

@[simp] theorem reclaim_names (s : State) : markNames (reclaim s) = markNames s := by
  unfold reclaim
  split
  · rfl
  · rw [liftLowWaters_names, detachMarks_names, reclaimFeeds_names]
    rfl

@[simp] theorem openNew_names (c : Cls) (s : State) : markNames (openNew c s) = markNames s := by
  show markNames (withRoom s) = markNames s
  unfold withRoom
  split
  · exact reclaim_names s
  · rfl

@[simp] theorem layChars_names (r : PlaceReq) (cs : List Byte) (y : Laying) : markNames (layChars r cs y).s = markNames y.s := by
  unfold layChars
  repeat' split
  all_goals rfl

@[simp] theorem layOpen_names (r : PlaceReq) (o : Opening) (y : Laying) : markNames (layOpen r o y).s = markNames y.s := by
  unfold layOpen
  split
  · rfl
  · exact openNew_names _ _

@[simp] theorem closeOpen_names (s : State) : markNames (closeOpen s).1 = markNames s := markNames_of_eq (by simp)

@[simp] theorem layWrap_names (r : PlaceReq) (y : Laying) : markNames (layWrap r y).s = markNames y.s := by
  simp [layWrap]

@[simp] theorem layWord_names (r : PlaceReq) (n : Nat) (w : List Byte) (y : Laying) :
    markNames (layWord r n w y).s = markNames y.s := by
  induction n generalizing w y with
  | zero => rfl
  | succ n ih =>
    unfold layWord
    dsimp only
    repeat' split
    all_goals simp [ih]

@[simp] theorem layInLine_names (r : PlaceReq) (t : Token) (y : Laying) : markNames (layInLine r t y).s = markNames y.s := by
  unfold layInLine
  dsimp only
  repeat' split
  all_goals simp

@[simp] theorem layToken_names (r : PlaceReq) (y : Laying) (t : Token) : markNames (layToken r y t).s = markNames y.s := by
  unfold layToken
  dsimp only
  repeat' split
  all_goals simp

@[simp] theorem layTokens_names (r : PlaceReq) (ts : List Token) (y : Laying) :
    markNames (ts.foldl (layToken r) y).s = markNames y.s := by
  induction ts generalizing y with
  | nil => rfl
  | cons t ts ih => simp [ih]

@[simp] theorem closeOtherClass_names (c : Cls) (s : State) : markNames (closeOtherClass c s).1 = markNames s :=
  markNames_of_eq (by simp)

@[simp] theorem place_names (r : PlaceReq) (s : State) : markNames (place r s).s = markNames s := by
  unfold place
  dsimp only
  rw [layTokens_names, closeOtherClass_names]
  split
  · exact closeOpen_names s
  · rfl

@[simp] theorem placeUnit_names (keep : Bool) (u : Formed) (s : State) : markNames (placeUnit keep u s) = markNames s := by
  show markNames (placeFormed u s).s = markNames s
  unfold placeFormed
  split
  · exact markNames_of_eq (by simp)
  · exact place_names _ s

/-- A pass reaches the marks through the lines reclaimed for its units alone. -/
@[simp] theorem pass_names (flush keep : Bool) (n : Nat) (s : State) : markNames (pass flush keep n s) = markNames s := by
  induction n generalizing s with
  | zero => rfl
  | succ n ih =>
    unfold pass
    dsimp only
    repeat' split
    · rfl
    · rfl
    · rw [ih, placeUnit_names]
      rfl

@[simp] theorem setTrans_names (r : Translator) (s : State) : markNames (setTrans r s) = markNames s := rfl

@[simp] theorem setTimer_names (b : List TStroke) (s : State) : markNames (setTimer b s) = markNames s := markNames_of_eq (by simp)

@[simp] theorem stopTimer_names (s : State) : markNames (stopTimer s) = markNames s := rfl

@[simp] theorem flushComplete_names (s : State) : markNames (flushComplete s) = markNames s := markNames_of_eq (by simp)

@[simp] theorem retractUnit_names (u : TUnit) (s : State) : markNames (retractUnit u s) = markNames s := by
  simp only [retractUnit, resolvePass, setTimer_names, pass_names, setTrans_names]
  split
  · exact markNames_of_eq (by simp)
  · rfl

/-- Whatever stroke the Translator takes, it reaches the marks through its pass alone. -/
@[simp] theorem takeStroke_names (k : Stroke) (s : State) : markNames (takeStroke k s) = markNames s := by
  unfold takeStroke takeCorrection
  repeat' split
  · simp [dropNewest, resolvePass]
  · exact retractUnit_names _ s
  · exact markNames_of_eq (by simp)
  · simp [takeOrdinary, resolvePass]
  · exact markNames_of_eq (by simp)
  · simp [takeLateStroke]

@[simp] theorem takeAllHanded_names (n : Nat) (s : State) : markNames (takeAllHanded n s) = markNames s := by
  induction n generalizing s with
  | zero => rfl
  | succ n ih =>
    unfold takeAllHanded
    split
    · rfl
    · simp [ih]

@[simp] theorem leaveLive_names (closing : Bool) (s : State) : markNames (leaveLive closing s) = markNames s := by
  simp [leaveLive, flushPass]

end Sys2Proof.Machine

/-! The Mark Table stays sound and its ATTACHED marks on SETTLED lines (O48): most commands leave the marks and every SETTLED line; the
others keep both rules, each by what it does to the records. -/

namespace Sys2Proof.Machine

/-! ### Both rules together -/

/-- Both rules of R187 hold in `t` where they hold in `s`. -/
def MarksKept (s t : State) : Prop := (MarksSound s → MarksSound t) ∧ (MarksAttached s → MarksAttached t)

theorem MarksKept.refl (s : State) : MarksKept s s := ⟨id, id⟩

theorem MarksKept.trans {s t u : State} (h1 : MarksKept s t) (h2 : MarksKept t u) : MarksKept s u := ⟨h2.1 ∘ h1.1, h2.2 ∘ h1.2⟩

/-- Where only an edit or a reclaim has reached the records, the rules of the table hold on. -/
theorem MarksKept.of_names {s t : State} (h : markNames t = markNames s) (ha : MarksAttached s → MarksAttached t) : MarksKept s t :=
  ⟨.of_names h, ha⟩

/-- Where the marks are as they were and SETTLED lines stay, both rules hold on (R129). -/
theorem SettledStay.kept {s t : State} (h : SettledStay s t) : MarksKept s t := .of_names (markNames_of_eq h.1) h.attached

/-- An empty table meets both rules (R197, R198). -/
theorem MarksKept.of_empty (s : State) {t : State} (h : t.marks.records = []) : MarksKept s t := by
  refine ⟨fun _ => ?_, fun _ m hm => ?_⟩
  · rw [marksSound_iff, h]
    exact tableSound_nil
  · rw [h] at hm
    cases hm

theorem SettledStay.refl (s : State) : SettledStay s s := .of_eq rfl rfl

/-! ### The commands that leave the marks and every SETTLED line -/

section Quiet
variable (s : State)

theorem takeSample_stay (n : Nat) : SettledStay s (takeSample n s) := .of_eq (by simp) (by simp)

theorem holdExpiry_stay : SettledStay s (holdExpiry s) := by
  unfold holdExpiry
  repeat' split
  all_goals exact .of_eq (by simp) (by simp)

theorem zeroingDone_stay : SettledStay s (zeroingDone s) := by
  unfold zeroingDone
  repeat' split
  all_goals exact .of_eq (by simp) (by simp)

theorem intervalExpiry_stay : SettledStay s (intervalExpiry s) := by
  unfold intervalExpiry
  split
  · exact .of_eq (by simp) (by simp)
  · exact .refl s

theorem startWrite_stay : SettledStay s (startWrite s) := by
  unfold startWrite
  repeat' split
  all_goals exact .of_eq rfl rfl

theorem startReporterTransfer_stay : SettledStay s (startReporterTransfer s) := by
  unfold startReporterTransfer
  repeat' split
  all_goals exact .of_eq rfl rfl

theorem endWrite_stay (ok : Bool) : SettledStay s (endWrite ok s) := by
  rcases endWrite_cases ok s with e | ⟨i, slot, b, n, -, -, e⟩ <;> rw [e]
  · exact .refl s
  · split
    · exact .of_eq (by simp [writeStored]) (by simp [writeStored])
    · exact .of_eq (by simp [writeFailed]) (by simp [writeFailed])

theorem endRead_stay (r : SlotRead) : SettledStay s (endRead r s) := by
  unfold endRead
  repeat' split
  all_goals exact .of_eq (by simp) (by simp)

theorem endClear_stay (ok : Bool) : SettledStay s (endClear ok s) := by
  unfold endClear
  repeat' split
  all_goals exact .of_eq (by simp [clearDone, clearFailed]) (by simp [clearDone, clearFailed])

theorem recoverSlot_stay (r : RecoveryRead) : SettledStay s (recoverSlot r s) := by
  unfold recoverSlot
  repeat' split
  all_goals exact .of_eq rfl rfl

theorem finishRecovery_stay : SettledStay s (finishRecovery s) := by
  unfold finishRecovery
  split
  · exact .of_eq (by simp) (by simp)
  · exact .refl s

theorem buildDone_stay : SettledStay s (buildDone s) := by
  unfold buildDone
  split
  · exact .of_eq (by simp) (by simp)
  · exact .refl s

theorem rstnReleased_stay : SettledStay s (rstnReleased s) := by
  unfold rstnReleased
  split
  · exact .of_eq rfl rfl
  · exact .refl s

theorem sbarChanged_stay (high : Bool) : SettledStay s (sbarChanged high s) := by
  unfold sbarChanged
  dsimp only
  repeat' split
  all_goals exact .of_eq (by simp) (by simp)

theorem deglitchExpired_stay : SettledStay s (deglitchExpired s) := by
  unfold deglitchExpired
  split
  · exact .of_eq (by simp) (by simp)
  · exact .refl s

theorem presenceExpired_stay (l : Link) : SettledStay s (presenceExpired l s) := by
  unfold presenceExpired
  split
  · exact .of_eq (by simp) (by simp)
  · exact .refl s

theorem frameMalformed_stay (l : Link) (bs : List Byte) : SettledStay s (frameMalformed l bs s) := by
  unfold frameMalformed
  repeat' split
  all_goals exact .of_eq (by simp) (by simp)

theorem frameThrownAway_stay (l : Link) (bs : List Byte) : SettledStay s (frameThrownAway l bs s) := by
  unfold frameThrownAway
  repeat' split
  all_goals exact .of_eq (by simp) (by simp)

theorem frameUnknown_stay (l : Link) (code tag : Byte) : SettledStay s (frameUnknown l code tag s) := by
  unfold frameUnknown
  dsimp only
  repeat' split
  all_goals exact .of_eq (by simp) (by simp)

end Quiet

/-! ### The feeds: what they record in a line leaves its state (R166) -/

section Feeds
variable (f : Fin 4) (s : State)

theorem setFeedCtx_stay (c : Feed) : SettledStay s (setFeedCtx f c s) := .of_eq rfl rfl

theorem post_stay (l : Link) (n : Notice) : SettledStay s (post l n s) := .of_eq (by simp) (by simp)

theorem endTest_stay (o : TestOutcome) : SettledStay s (endTest f o s) := by
  unfold endTest
  dsimp only
  exact ((setFeedCtx_stay f s _).trans (becomeOff_stay f _)).trans (post_stay _ _ _)

/-- A feed brought to HELD or LIVE by its hold makes a choice (R173, R174). -/
theorem choose_entered_stay : SettledStay s (choose f (refreshHealth f (enterByHold f s))) :=
  SettledStay.trans (.of_eq (by simp) (by simp)) (choose_stay f _)

theorem holdChanged_stay : SettledStay s (holdChanged f s) := by
  unfold holdChanged
  repeat' split
  · exact choose_entered_stay f s
  · exact .refl s
  · exact .refl s
  · exact choose_entered_stay f s
  · exact .refl s

theorem rdyAsserted_stay : SettledStay s (rdyAsserted f s) := by
  unfold rdyAsserted
  dsimp only
  split
  · exact (setFeedCtx_stay f s _).trans (choose_entered_stay f _)
  · exact SettledStay.trans (.of_eq (by simp) (by simp)) (choose_stay f _)

theorem rdyChanged_stay (high : Bool) : SettledStay s (rdyChanged f high s) := by
  have hpin : SettledStay s (setRdy f high s) := .of_eq rfl rfl
  unfold rdyChanged
  repeat' split
  · exact .refl s
  · exact hpin.trans (rdyAsserted_stay f _)
  · exact hpin

theorem gateChanged_stay (high : Bool) : SettledStay s (gateChanged high s) := by
  unfold gateChanged
  dsimp only
  repeat' split
  · exact .refl s
  · exact .of_eq rfl rfl
  · exact SettledStay.trans (.of_eq (by simp) (by simp)) (holdChanged_stay 3 _)
  · exact SettledStay.trans (.of_eq (by simp) (by simp)) (holdChanged_stay 3 _)

theorem frameDone_stay : SettledStay s (frameDone f s) := by
  unfold frameDone
  dsimp only
  repeat' split
  · exact .refl s
  · exact (setFeedCtx_stay f s _).trans (choose_stay f _)
  · exact (setFeedCtx_stay f s _).trans (choose_stay f _)
  · exact (setFeedCtx_stay f s _).trans (endTest_stay f _ _)
  · exact (setFeedCtx_stay f s _).trans (becomeOff_stay f _)
  · exact (setFeedCtx_stay f s _).trans (endTest_stay f _ _)
  · exact (setFeedCtx_stay f s _).trans (choose_stay f _)
  · exact setFeedCtx_stay f s _
  · exact setFeedCtx_stay f s _

theorem idleExpired_stay : SettledStay s (idleExpired f s) := by
  unfold idleExpired
  dsimp only
  split
  · exact (setFeedCtx_stay f s _).trans (choose_stay f _)
  · exact .refl s

theorem stallExpired_stay : SettledStay s (stallExpired f s) := by
  unfold stallExpired
  dsimp only
  repeat' split
  · exact .of_eq (by simp) (by simp)
  · exact .of_eq (by simp) (by simp)
  · exact endTest_stay f s _
  · exact .refl s
  · exact .refl s

theorem setHold_stay (on : Bool) : SettledStay s (setHold on s f) := by
  unfold setHold
  split
  · exact .refl s
  · exact (setFeedCtx_stay f s _).trans (holdChanged_stay f _)

theorem holdFold_stay (on : Bool) (fs : List (Fin 4)) : SettledStay s (fs.foldl (setHold on) s) := by
  induction fs generalizing s with
  | nil => exact .refl s
  | cons f fs ih => exact (setHold_stay f s on).trans (ih _)

theorem disabled_stay : SettledStay s (disabled f s) := by
  unfold disabled
  repeat' split
  · exact .of_eq (by simp) (by simp)
  · exact endTest_stay f s _
  · exact becomeOff_stay f s

end Feeds

/-! ### The requests that leave the marks and every SETTLED line -/

/-- A block's answer leaves the marks and every SETTLED line. -/
def TableStays {α : Type} (block : α → State → Reply) : Prop := ∀ a s, SettledStay s (block a s).state

theorem readAttention_table (l : Link) : TableStays (readAttention l) := fun a s =>
  .of_eq (by simp [readAttention, Reply.state]) (by simp [readAttention, Reply.state])

theorem readLines_table : TableStays readLines := fun a s => by
  unfold readLines
  split <;> exact .refl s

theorem listMarks_table : TableStays listMarks := fun a s => by
  unfold listMarks
  split <;> exact .refl s

theorem setConditioning_table : TableStays setConditioning := fun a s => by
  unfold setConditioning
  repeat' split
  all_goals exact .of_eq rfl rfl

theorem setTiming_table : TableStays setTiming := fun a s => by
  unfold setTiming
  repeat' split
  all_goals exact .of_eq rfl rfl

theorem zeroKeys_table : TableStays zeroKeys := fun a s => by
  unfold zeroKeys
  split <;> exact .of_eq rfl rfl

theorem beginLoad_table : TableStays beginLoad := fun a s => by
  unfold beginLoad
  repeat' split
  all_goals exact .of_eq rfl rfl

theorem loadEntries_table : TableStays loadEntries := fun a s => by
  unfold loadEntries
  repeat' split
  all_goals exact .of_eq rfl rfl

theorem endLoad_table : TableStays endLoad := fun a s => by
  unfold endLoad
  repeat' split
  all_goals exact .of_eq rfl rfl

theorem openStaged_table : TableStays openStaged := fun a s => by
  unfold openStaged
  repeat' split
  all_goals exact .of_eq rfl rfl

theorem stageChange_stay (g : List Staged) (c : Staged) (p : List Byte) (s : State) : SettledStay s (stageChange g c p s).state := by
  unfold stageChange
  repeat' split
  all_goals exact .of_eq rfl rfl

theorem stageDefine_table : TableStays stageDefine := fun a s => by
  unfold stageDefine
  repeat' split
  · exact .refl s
  · exact .refl s
  · exact .refl s
  · exact .refl s
  · exact stageChange_stay _ _ _ s

theorem stageRemove_table : TableStays stageRemove := fun a s => by
  unfold stageRemove
  repeat' split
  · exact .refl s
  · exact .refl s
  · exact .refl s
  · exact stageChange_stay _ _ _ s

theorem commitGroup_table : TableStays commitGroup := fun a s => by
  unfold commitGroup
  dsimp only
  repeat' split
  all_goals exact .of_eq (by simp [refuse, Reply.state]) (by simp [refuse, Reply.state])

theorem abandonGroup_table : TableStays abandonGroup := fun a s => by
  unfold abandonGroup
  split <;> exact .of_eq rfl rfl

theorem clearJob_table : TableStays clearJob := fun a s => by
  unfold clearJob
  repeat' split
  all_goals exact .of_eq rfl rfl

theorem lookUp_table : TableStays lookUp := fun a s => by
  unfold lookUp
  repeat' split
  all_goals exact .refl s

theorem resume_table : TableStays resume := fun a s => by
  unfold resume
  repeat' split
  all_goals exact .of_eq (by simp [refuse, Reply.state, resumed]) (by simp [refuse, Reply.state, resumed])

theorem readBlock_table : TableStays readBlock := fun a s => by
  unfold readBlock
  repeat' split
  all_goals exact .of_eq rfl rfl

theorem releaseBlock_table : TableStays releaseBlock := fun a s => by
  unfold releaseBlock
  repeat' split
  all_goals exact .of_eq rfl rfl

theorem closeBlock_table : TableStays closeBlock := fun a s => by
  unfold closeBlock
  repeat' split
  all_goals exact .of_eq (by simp [refuse, Reply.state]) (by simp [refuse, Reply.state])

theorem setClass_table : TableStays setClass := fun a s => by
  unfold setClass
  repeat' split
  all_goals exact .of_eq (by simp [refuse, Reply.state]) (by simp [refuse, Reply.state])

theorem setFeed_table : TableStays setFeed := fun a s => by
  unfold setFeed
  repeat' split
  all_goals exact .of_eq rfl rfl

theorem enableFeed_table : TableStays enableFeed := fun a s => by
  unfold enableFeed
  repeat' split
  · exact .refl s
  · exact SettledStay.trans (.of_eq (by simp) (by simp)) (choose_stay _ _)
  · exact .refl s
  · exact .refl s
  · exact .refl s

theorem disableFeed_table : TableStays disableFeed := fun a s => by
  unfold disableFeed
  repeat' split
  · exact .refl s
  · exact .refl s
  · exact disabled_stay _ s

theorem testFeed_table : TableStays testFeed := fun a s => by
  unfold testFeed
  repeat' split
  · exact .refl s
  · exact .refl s
  · exact SettledStay.trans (.of_eq (by simp) (by simp)) (choose_stay _ _)

theorem holdOrRelease_table (on : Bool) : TableStays (holdOrRelease on) := fun a s => by
  unfold holdOrRelease
  repeat' split
  · exact .refl s
  · exact .refl s
  · exact holdFold_stay s on _

/-! ### The resets -/

theorem warmReset_marks (cause : ResetCause) (s : State) : MarksKept s (warmReset cause s) := .of_empty s rfl

theorem rstnAsserted_marks (s : State) : MarksKept s (rstnAsserted s) := by
  unfold rstnAsserted
  split
  · exact .refl s
  · exact .of_empty s rfl

theorem resetPartExpired_marks (s : State) : MarksKept s (resetPartExpired s) := by
  unfold resetPartExpired
  split
  · exact .of_empty s rfl
  · exact .refl s

/-- A fetch leaves the marks and the lines, but for the reset that the end of a Reset Part's response brings (R68). -/
theorem fetched_marks (l : Link) (n : Nat) (s : State) : MarksKept s (fetched l n s) := by
  have hsent : ∀ bs, MarksKept s (sent l bs s) := fun bs => (SettledStay.of_eq (by simp) (by simp)).kept
  unfold fetched resetIfArmed
  dsimp only
  repeat' split
  · exact .refl s
  · exact hsent _
  · exact .of_empty s rfl
  · exact (SettledStay.of_eq (by simp) (by simp)).kept
  · exact hsent _
  · exact hsent _

/-! ### The Translator's commands -/

theorem takeStroke_kept (k : Stroke) (s : State) : MarksKept s (takeStroke k s) := .of_names (by simp) (takeStroke_attached k s)

theorem resolvePass_kept (s : State) : MarksKept s (resolvePass s) := .of_names (pass_names ..) (pass_attached _ _ _ s)

theorem flushPass_kept (s : State) : MarksKept s (flushPass s) := .of_names (pass_names ..) (pass_attached _ _ _ s)

theorem takeNext_marks (s : State) : MarksKept s (takeNext s) := by
  unfold takeNext
  split
  · exact .refl s
  · next k ks _ => exact (takeStroke_kept k (setTrans { s.trans with handed := ks } s)).trans (chooseAll_stay _).kept

theorem resolutionExpired_marks (s : State) : MarksKept s (resolutionExpired s) := by
  unfold resolutionExpired
  split
  · refine (flushPass_kept s).trans (SettledStay.kept ?_)
    exact SettledStay.trans (.of_eq (by simp) (by simp)) (chooseAll_stay _)
  · exact .refl s

theorem tiersChanged_marks (s : State) : MarksKept s (tiersChanged s) := by
  unfold tiersChanged
  split
  · exact .refl s
  · next n _ =>
    refine (resolvePass_kept (setTrans { s.trans with notices := n } s)).trans (SettledStay.kept ?_)
    exact SettledStay.trans (.of_eq (by simp) (by simp)) (chooseAll_stay _)

/-! ### The marks' own requests -/

/-- A mark of a new kind for its owner and line joins a table with room, ATTACHED to a SETTLED line (R187, R189). -/
theorem applyMark_kept {l : Link} {k : MarkKind} {ln : Line} {label : Option (List Byte)} {s : State} (hln : ln ∈ s.lines.records)
    (hst : ln.state = .settled) (hsame : sameMark s.marks.records l ln.serial k = none) (hroom : s.marks.records.length < 64) :
    MarksKept s (applyMark (markOf l k ln label s) s) := by
  refine ⟨fun hs => ?_, applyMark_attached _ s ⟨ln, hln, rfl, hst⟩⟩
  rw [marksSound_iff, applyMark_marks]
  refine ((marksSound_iff s).1 hs).insert hroom (newId_fresh s.marks hroom) fun x hx hxm => ?_
  simpa [hxm, markOf] using List.find?_eq_none.1 hsame x hx

theorem setMark_marks (l : Link) (a : SetMarkArgs) (s : State) : MarksKept s (setMark l a s).state := by
  unfold setMark setMarkOn
  dsimp only
  repeat' split
  · exact .refl s
  · exact .refl s
  · exact .refl s
  · exact .refl s
  · exact .refl s
  · exact .refl s
  · exact .refl s
  · next ln hln hst _ hsame hroom =>
    have hserial : ln.serial = a.serial := by simpa using List.find?_some hln
    exact applyMark_kept (List.mem_of_find?_eq_some hln) (by simpa using hst) (hserial ▸ hsame) (Nat.lt_of_not_le hroom)

theorem applyUnmark_kept (l : Link) (m : Mark) (s : State) : MarksKept s (applyUnmark l m s) := by
  refine ⟨fun hs => ?_, applyUnmark_attached l m s⟩
  rw [marksSound_iff, applyUnmark_marks]
  exact ((marksSound_iff s).1 hs).sublist List.filter_sublist

theorem removeMark_marks (l : Link) (n : Nat) (s : State) : MarksKept s (removeMark l n s).state := by
  unfold removeMark
  repeat' split
  · exact .refl s
  · exact .refl s
  · exact .refl s
  · exact applyUnmark_kept l _ s

/-! ### Edit Line and the session requests -/

theorem editLine_marks (a : EditLineArgs) (s : State) : MarksKept s (editLine a s).state := by
  unfold editLine
  repeat' split
  · exact .refl s
  · exact .refl s
  · exact .refl s
  · exact .refl s
  · next l _ _ _ =>
    refine .of_names ?_ (applyEdit_attached l a.text s)
    calc markNames (applyEdit l a.text s)
      _ = markNames (editMade l a.text s) := markNames_of_eq (by simp [applyEdit_eq])
      _ = markNames s := (reviseMarks_names _ _).trans (markNames_of_eq (by simp))

/-- An opening begins with an empty table (R197). -/
theorem openSession_marks (a : Unit) (s : State) : MarksKept s (openSession a s).state := by
  unfold openSession
  split
  · exact .refl s
  · exact .of_empty s (by simp [Reply.state, opened, emptyTranscript, MarkTable.emptied])

/-- A flush reclaims lines, and the choices after it leave the SETTLED ones (R115, R163). -/
theorem departed_kept (closing : Bool) (s : State) : MarksKept s (departed closing s) := by
  have habandon : SettledStay s (abandonChord s) := .of_eq (by simp) (by simp)
  have hleave : MarksKept (abandonChord s) (leaveLive closing (abandonChord s)) :=
    .of_names (by simp) (leaveLive_attached closing _)
  exact (habandon.kept.trans hleave).trans (chooseAll_stay _).kept

theorem recess_marks (a : Unit) (s : State) : MarksKept s (recess a s).state := by
  unfold recess
  split
  · rw [recessed_eq]
    have hentered : SettledStay s (postBoth .sessionState (recessEntered s)) :=
      .of_eq (by simp [recessEntered, recessSession]) (by simp [recessEntered, recessSession])
    exact hentered.kept.trans (departed_kept _ _)
  · exact .refl s
  · exact .refl s

theorem closed_kept (s : State) : MarksKept s (closed s) := by
  have hentered : SettledStay s (discardGroup (postBoth .sessionState (closeEntered s))) :=
    .of_eq (by simp [closeEntered]) (by simp [closeEntered])
  have hreport : SettledStay (closeDeparted s) (closed s) := .of_eq (by simp [closed_eq]) (by simp [closed_eq])
  exact (hentered.kept.trans (departed_kept true _)).trans hreport.kept

theorem closeSession_marks (a : Unit) (s : State) : MarksKept s (closeSession a s).state := by
  unfold closeSession
  repeat' split
  · exact closed_kept s
  · exact .refl s
  · exact closed_kept s
  · exact .refl s
  · exact .refl s

/-! ### Every command -/

theorem serve_marks {α : Type} (l : Link) (tag : Byte) (r : Req) (p : Payload α) {block : α → State → Reply}
    (hb : ∀ a s, MarksKept s (block a s).state) (s : State) : MarksKept s (serve l tag r p block s) :=
  serve_induct (MarksKept s) (fun _ _ _ hx => hx.trans (SettledStay.of_eq (by simp) (by simp)).kept) l tag r p block
    (fun a x hx => hx.trans (hb a x)) s (.refl s)

theorem serve_table {α : Type} (l : Link) (tag : Byte) (r : Req) (p : Payload α) {block : α → State → Reply}
    (hb : TableStays block) (s : State) : MarksKept s (serve l tag r p block s) :=
  serve_marks l tag r p (fun a x => (hb a x).kept) s

theorem exec_marks (c : Instr) (s : State) : NextMeets (MarksKept s) (exec c s) := by
  cases c with
  | powerOn => exact .of_empty s rfl
  | rstnAssert => exact rstnAsserted_marks s
  | rstnRelease => exact (rstnReleased_stay s).kept
  | resetPartTimeout => exact resetPartExpired_marks s
  | recoverySlotRead r => exact (recoverSlot_stay s r).kept
  | recoveryComplete => exact (finishRecovery_stay s).kept
  | keySample raw =>
    show MarksKept s (if s.pins.rstnHeld then s else takeSample raw.toNat s)
    split
    · exact .refl s
    · exact (takeSample_stay s _).kept
  | holdTimerExpiry => exact (holdExpiry_stay s).kept
  | zeroingComplete => exact (zeroingDone_stay s).kept
  | blockIntervalExpiry => exact (intervalExpiry_stay s).kept
  | blockWriteStart => exact (startWrite_stay s).kept
  | reporterTransferStart => exact (startReporterTransfer_stay s).kept
  | blockWriteComplete ok => exact (endWrite_stay s ok).kept
  | blockReadComplete r => exact (endRead_stay s r).kept
  | headerClearComplete ok => exact (endClear_stay s ok).kept
  | buildComplete => exact (buildDone_stay s).kept
  | strokeHandover => exact takeNext_marks s
  | resolutionTimerExpiry => exact resolutionExpired_marks s
  | tierChangeNotice => exact tiersChanged_marks s
  | sbarChange high => exact (sbarChanged_stay s high).kept
  | deglitchExpiry => exact (deglitchExpired_stay s).kept
  | fnrdyChange f high => exact (rdyChanged_stay f s high).kept
  | fgate3Change high => exact (gateChanged_stay s high).kept
  | frameComplete f => exact (frameDone_stay f s).kept
  | idleTimerExpiry f => exact (idleExpired_stay f s).kept
  | stallTimerExpiry f => exact (stallExpired_stay f s).kept
  | presenceTimerExpiry l => exact (presenceExpired_stay s l).kept
  | fetch l n => exact fetched_marks l n s
  | frameError l bytes => exact (frameMalformed_stay s l bytes).kept
  | frameDiscarded l bytes => exact (frameThrownAway_stay s l bytes).kept
  | unknownRequest l code tag => exact (frameUnknown_stay s l code tag).kept
  | getStatus l tag p => exact serve_table l tag _ p (block := getStatus) (fun _ s => .refl s) s
  | readAttention l tag p => exact serve_table l tag _ p (readAttention_table l) s
  | readLines l tag p => exact serve_table l tag _ p readLines_table s
  | setMark l tag p => exact serve_marks l tag _ p (setMark_marks l) s
  | removeMark l tag p => exact serve_marks l tag _ p (removeMark_marks l) s
  | listMarks l tag p => exact serve_table l tag _ p listMarks_table s
  | readFeedHealth l tag p => exact serve_table l tag _ p (block := readHealth l) (fun _ s => .refl s) s
  | setTranslationParameters l tag p => exact serve_table l tag _ p (block := setParams) (fun _ _ => .of_eq rfl rfl) s
  | setKeyConditioning l tag p => exact serve_table l tag _ p setConditioning_table s
  | setChordTiming l tag p => exact serve_table l tag _ p setTiming_table s
  | zeroKeys l tag p => exact serve_table l tag _ p zeroKeys_table s
  | readKeyDepths l tag p => exact serve_table l tag _ p (block := readDepths) (fun _ s => .refl s) s
  | beginMainLoad l tag p => exact serve_table l tag _ p beginLoad_table s
  | loadEntries l tag p => exact serve_table l tag _ p loadEntries_table s
  | endMainLoad l tag p => exact serve_table l tag _ p endLoad_table s
  | openGroup l tag p => exact serve_table l tag _ p openStaged_table s
  | stageDefine l tag p => exact serve_table l tag _ p stageDefine_table s
  | stageRemove l tag p => exact serve_table l tag _ p stageRemove_table s
  | commitGroup l tag p => exact serve_table l tag _ p commitGroup_table s
  | abandonGroup l tag p => exact serve_table l tag _ p abandonGroup_table s
  | clearJobTier l tag p => exact serve_table l tag _ p clearJob_table s
  | lookUp l tag p => exact serve_table l tag _ p lookUp_table s
  | openSession l tag p => exact serve_marks l tag _ p openSession_marks s
  | recess l tag p => exact serve_marks l tag _ p recess_marks s
  | resume l tag p => exact serve_table l tag _ p resume_table s
  | closeSession l tag p => exact serve_marks l tag _ p closeSession_marks s
  | resetPart l tag p => exact serve_table l tag _ p (block := resetPart) (fun _ _ => .of_eq rfl rfl) s
  | readJournalBlock l tag p => exact serve_table l tag _ p readBlock_table s
  | releaseJournalBlock l tag p => exact serve_table l tag _ p releaseBlock_table s
  | closeJournalBlock l tag p => exact serve_table l tag _ p closeBlock_table s
  | journalSummary l tag p => exact serve_table l tag _ p (block := readSummary) (fun _ s => .refl s) s
  | editLine l tag p => exact serve_marks l tag _ p editLine_marks s
  | setFeed l tag p => exact serve_table l tag _ p setFeed_table s
  | enableFeed l tag p => exact serve_table l tag _ p enableFeed_table s
  | disableFeed l tag p => exact serve_table l tag _ p disableFeed_table s
  | testFeed l tag p => exact serve_table l tag _ p testFeed_table s
  | setClass l tag p => exact serve_table l tag _ p setClass_table s
  | holdFeeds l tag p => exact serve_table l tag _ p (holdOrRelease_table true) s
  | releaseFeeds l tag p => exact serve_table l tag _ p (holdOrRelease_table false) s

/-- Settles O48: a tick leaves the marks and the lines, and each command keeps both rules. -/
theorem markTableStaysSound : Obligations.MarkTableStaysSound := by
  intro s t e
  unfold step at e
  split at e
  · cases e
    exact ⟨id, id⟩
  · next c rest _ =>
    have h := exec_marks c { s with pending := rest }
    rw [e] at h
    exact h

end Sys2Proof.Machine

/-! Set Mark and Remove Mark (O47): each answer of the Mark Table, and what a mark set and a mark removed make of the state. -/

namespace Sys2Proof.Machine

/-! ### The entries written out (R219) -/

theorem MarkKind.code_ofCode {n : Nat} {k : MarkKind} (h : MarkKind.ofCode n = some k) : k.code = n := by
  match n, h with
  | 0, rfl => rfl
  | 1, rfl => rfl
  | 2, rfl => rfl

theorem ownerCode_eq (l : Link) : ownerCode l = if l = .reporter then 0 else 1 := by cases l <;> rfl

theorem markFieldA_eq (m : Mark) : markFieldA m = m.id * 65536 + (if m.owner = .reporter then 0 else 1) * 256 + m.kind.code := by
  rw [markFieldA, three, ownerCode_eq]

theorem markEntry_eq (m : Mark) (s : State) : markEntry m s =
    { kind := .mark, attrs := BitVec.ofNat 8 s.cls.effective.code, seq := m.serial, time := s.session.clock
      fieldA := m.id * 65536 + (if m.owner = .reporter then 0 else 1) * 256 + m.kind.code
      fieldB := m.page * 256 + m.line } := by
  rw [markEntry, markFieldA_eq, clsAttrs, pageLine]

theorem unmarkEntry_eq (m : Mark) (s : State) : unmarkEntry m s =
    { kind := .unmark, attrs := BitVec.ofNat 8 s.cls.effective.code, seq := m.serial, time := s.session.clock
      fieldA := m.id * 65536 + (if m.owner = .reporter then 0 else 1) * 256 + m.kind.code
      fieldB := m.page * 256 + m.line + (if m.detached then 128 else 0) + (if m.revised then 64 else 0) } := by
  rw [unmarkEntry, markFieldA_eq, clsAttrs, pageLine]

/-! ### Set Mark's answers (R188) -/

section SetAnswers
variable {l : Link} {a : SetMarkArgs} {k : MarkKind} {ln : Line} {s : State} (ho : s.session.st.isOpen = true)
  (hk : MarkKind.ofCode a.kind = some k) (hlabel : (a.label.getD []).length ≤ 12) (hln : findLine s.lines.records a.serial = some ln)
  (hst : ln.state = .settled)
include ho hk hlabel hln hst

theorem setMark_already {m : Mark} (hsame : sameMark s.marks.records l a.serial k = some m) :
    setMark l a s = .done .already (be 1 m.id ++ detachedByte m ++ [flagByte m.revised]) s := by
  simp [setMark, setMarkOn, ho, hk, hln, hst, hsame, labelLimit, Nat.not_lt.2 hlabel]

variable (hsame : sameMark s.marks.records l a.serial k = none)
include hsame

theorem setMark_full (hfull : 64 ≤ s.marks.records.length) : setMark l a s = refuse .tableFull s := by
  simp [setMark, setMarkOn, ho, hk, hln, hst, hsame, labelLimit, Nat.not_lt.2 hlabel, markCapacity, hfull]

theorem setMark_taken (hroom : s.marks.records.length < 64) :
    setMark l a s =
      .done .ok (setMarkPayload (markOf l k ln a.label s) a.label) (applyMark (markOf l k ln a.label s) s) := by
  simp [setMark, setMarkOn, ho, hk, hln, hst, hsame, labelLimit, Nat.not_lt.2 hlabel, markCapacity, Nat.not_le.2 hroom]

end SetAnswers

/-! ### Remove Mark's answers (R191) -/

section RemoveAnswers
variable {l : Link} {n : Nat} {m : Mark} {s : State} (ho : s.session.st.isOpen = true)
include ho

theorem removeMark_notFound (h : s.marks.records.find? (fun x => x.id = n) = none) : removeMark l n s = refuse .notFound s := by
  simp [removeMark, ho, h]

variable (h : s.marks.records.find? (fun x => x.id = n) = some m)
include h

theorem removeMark_notOwner (hl : m.owner ≠ l) : removeMark l n s = .done .notOwner (markField m) s := by
  simp [removeMark, ho, h, hl]

theorem removeMark_taken (hl : m.owner = l) : removeMark l n s = .done .ok (markField m) (applyUnmark l m s) := by
  simp [removeMark, ho, h, hl]

end RemoveAnswers

/-! ### The requests -/

section Requests
variable {l : Link} {tag : Byte} {s : State} {y : Reply} (ht : Takes l s)
include ht

/-- Set Mark on either link is answered by the Mark Table. -/
theorem exec_setMark {a : SetMarkArgs} (h : setMark l a (touchPresence l s) = y) :
    exec (.setMark l tag (.fields a)) s = .next (deliver l Req.setMark.code tag y) :=
  h ▸ congrArg Host.Outcome.next (serve_takes l tag .setMark a (setMark l) s ht (by cases l <;> rfl))

/-- Remove Mark on either link is answered by the Mark Table. -/
theorem exec_removeMark {n : Nat} (h : removeMark l n (touchPresence l s) = y) :
    exec (.removeMark l tag (.fields n)) s = .next (deliver l Req.removeMark.code tag y) :=
  h ▸ congrArg Host.Outcome.next (serve_takes l tag .removeMark n (removeMark l) s ht (by cases l <;> rfl))

end Requests

/-- The response leaves the flags of the other link. -/
theorem answered_other (l : Link) (r : Req) (tag : Byte) (st : Status) (p : List Byte) (s : State) :
    (answered l r tag st p s).link (otherLink l) = s.link (otherLink l) := setLink_other s l _

/-- Settles O47: each request by the Mark Table's answer on the state as the frame's arrival leaves it. -/
theorem markRequestsChangeTheTable : Obligations.MarkRequestsChangeTheTable := by
  intro l tag s ht hs
  have ho : (touchPresence l s).session.st.isOpen = true := by simpa using SessState.isOpen_of hs
  have hc : (touchPresence l s).session.st ≠ .closing := by rcases hs with hs | hs <;> simp [hs]
  refine ⟨fun a k ln hk hlabel hln hst hsame hroom => ?_, fun a k ln m hk hlabel hln hst hsame => ?_,
    fun a k ln hk hlabel hln hst hsame hfull => ?_, fun n m hm hown => ?_, fun n m hm hown => ?_, fun n hm => ?_⟩
  · have htaken := setMark_taken ho hk hlabel (by simpa using hln) hst (by simpa using hsame) (by simpa using hroom)
    refine ⟨_, markOf l k ln a.label (touchPresence l s), exec_setMark ht htaken, ?_, ?_, ?_, ?_, ?_, ?_⟩
    · simp [markOf]
    · simp [applyMark_marks]
    · rw [deliver_done, answered_other]
      exact applyMark_told (markOf l k ln a.label (touchPresence l s)) _
    · exact ⟨_, congrArg LinkState.exch (setLink_link _ l _), rfl, rfl, rfl⟩
    · refine EntryJoins.congr (s := touchPresence l s) (t := applyMark (markOf l k ln a.label (touchPresence l s)) (touchPresence l s))
        ?_ (by simp) (by simp)
      convert applyMark_joins (markOf l k ln a.label (touchPresence l s)) (touchPresence l s) using 1
      simp [markEntry_eq, markOf, MarkKind.code_ofCode hk]
    · simp [OutsideKept, applyMark_session _ _ hc]
  · exact exec_setMark ht (setMark_already ho hk hlabel (by simpa using hln) hst (by simpa using hsame))
  · exact exec_setMark ht (setMark_full ho hk hlabel (by simpa using hln) hst (by simpa using hsame) (by simpa using hfull))
  · have htaken := removeMark_taken ho (by simpa using hm) hown
    refine ⟨_, exec_removeMark ht htaken, ?_, ?_, ?_, ?_, ?_⟩
    · have hid : m.id = n := by simpa using List.find?_some hm
      simp [applyUnmark_marks, hid]
    · rw [deliver_done, answered_other]
      exact applyUnmark_told l m _
    · exact ⟨_, congrArg LinkState.exch (setLink_link _ l _), rfl, rfl⟩
    · refine EntryJoins.congr (s := touchPresence l s) (t := applyUnmark l m (touchPresence l s)) ?_ (by simp) (by simp)
      convert applyUnmark_joins l m (touchPresence l s) using 1
      simp only [unmarkEntry_eq, touchPresence_keeps, hown]
      cases m.kind <;> rfl
    · simp [OutsideKept, applyUnmark_session _ _ _ hc]
  · exact exec_removeMark ht (removeMark_notOwner ho (by simpa using hm) hown)
  · exact exec_removeMark ht (removeMark_notFound ho (by simpa using hm))

end Sys2Proof.Machine

/-! Frames that reach no block (O55, O56): what the link makes of a frame while RSTN is held, on a busy link, where the frame is malformed or its
code unknown, and where a check of R201 refuses it. -/

namespace Sys2Proof.Machine

/-! ### A request frame as its link serves it -/

/-- The frame of every request is served on its link, whatever its payload reads as. -/
theorem exec_decodeRequest (l : Link) (tag : Byte) (bs : List Byte) (r : Req) :
    ∃ (α : Type) (p : Payload α) (block : α → State → Reply),
      ∀ s, exec (decodeRequest l tag bs r) s = .next (serve l tag r p block s) := by
  cases r <;> exact ⟨_, _, _, fun _ => rfl⟩

/-- The requests that carry no payload (R217). -/
def bareRequests : List Req :=
  [.getStatus, .readAttention, .readFeedHealth, .zeroKeys, .readKeyDepths, .beginMainLoad, .endMainLoad, .openGroup, .commitGroup,
    .abandonGroup, .clearJobTier, .openSession, .recess, .resume, .closeSession, .resetPart, .closeJournalBlock, .journalSummary]

/-- The frame of a request that carries no payload is served with its bytes read as no fields. -/
theorem exec_decodeRequest_bare (l : Link) (tag : Byte) (bs : List Byte) {r : Req} (hr : r ∈ bareRequests) :
    ∃ block : Unit → State → Reply,
      ∀ s, exec (decodeRequest l tag bs r) s = .next (serve l tag r (readAll readUnit bs) block s) := by
  unfold bareRequests at hr
  fin_cases hr <;> exact ⟨_, fun _ => rfl⟩

/-- Bytes where no field is due are a payload of wrong length. -/
theorem readAll_readUnit {bs : List Byte} (h : bs ≠ []) : readAll readUnit bs = .badLength := by
  cases bs with
  | nil => exact absurd rfl h
  | cons b rest => rfl

/-- While RSTN is held a request frame is ignored (R214). -/
theorem serve_held {α : Type} (l : Link) (tag : Byte) (r : Req) (p : Payload α) (block : α → State → Reply) {s : State}
    (hr : s.pins.rstnHeld = true) : serve l tag r p block s = writeOver l s := by
  simp [serve, hr]

/-! ### The checks of R201 -/

section Checks
variable {α : Type} {l : Link} {r : Req} (p : Payload α) (block : α → State → Reply) {s : State}

/-- Step 1: in START all but Get Status are refused. -/
theorem answer_start (hs : s.session.st = .start) (hr : r ≠ .getStatus) : answer l r p block s = refuse .notReady s :=
  if_pos ⟨hs, hr⟩

/-- Step 3: a request the link does not carry is refused. -/
theorem answer_notCarried (hs : s.session.st ≠ .start) (hc : r.carriedBy l = false) : answer l r p block s = refuse .notPermitted s := by
  simp [answer, hs, hc]

/-- Step 4: a payload of wrong length is refused. -/
theorem answer_badLength (hs : s.session.st ≠ .start) (hc : r.carriedBy l = true) : answer l r .badLength block s = refuse .range s := by
  simp [answer, hs, hc]

end Checks

/-- Get Status passes the checks in every session state. -/
theorem answer_getStatus (l : Link) (block : Unit → State → Reply) (s : State) :
    answer l .getStatus (.fields ()) block s = block () s := by
  cases l <;> simp [answer, Req.carriedBy, Req.benchOnly, Req.both]

/-- What stands on data out is not part of the status. -/
theorem statusPayload_writeOver (l : Link) (s : State) : statusPayload (writeOver l s) = statusPayload s := by
  cases l <;> rfl

/-! ### Malformed, discarded and unknown frames -/

theorem exec_frameError (l : Link) (bytes : List Byte) (s : State) : exec (.frameError l bytes) s = .next (frameMalformed l bytes s) := rfl

theorem exec_frameDiscarded (l : Link) (bytes : List Byte) (s : State) :
    exec (.frameDiscarded l bytes) s = .next (frameThrownAway l bytes s) := rfl

theorem exec_unknownRequest (l : Link) (code tag : Byte) (s : State) :
    exec (.unknownRequest l code tag) s = .next (frameUnknown l code tag s) := rfl

section Frames
variable {l : Link} {s : State} {b : Byte} {rest : List Byte}

/-- Bytes that begin with no 0x00 are a request write (R200). -/
theorem isWrite_cons (hb : b ≠ 0#8) : isWrite (b :: rest) = true := by
  simp [isWrite, hb]

theorem frameMalformed_held (hr : s.pins.rstnHeld = true) (hb : b ≠ 0#8) (hm : malformed (b :: rest) = true) :
    frameMalformed l (b :: rest) s = writeOver l s := by
  simp [frameMalformed, isWrite_cons hb, hm, hr]

/-- A malformed frame in IDLE is answered with its first two bytes, 0x00 for a second that is missing (R205). -/
theorem frameMalformed_idle (hr : s.pins.rstnHeld = false) (hb : b ≠ 0#8) (hm : malformed (b :: rest) = true)
    (hi : (s.link l).exch = .idle) :
    frameMalformed l (b :: rest) s =
      respond l { code := b, tag := rest.headD 0#8, status := .frameError, payload := [] } (writeOver l s) := by
  have he : errorResponse (b :: rest) = { code := b, tag := rest.headD 0#8, status := .frameError, payload := [] } := by
    cases rest <;> rfl
  simp [frameMalformed, isWrite_cons hb, hm, hr, hi, he]

theorem frameMalformed_busy (hr : s.pins.rstnHeld = false) (hb : b ≠ 0#8) (hm : malformed (b :: rest) = true)
    (hi : (s.link l).exch ≠ .idle) : frameMalformed l (b :: rest) s = discardFrame l (writeOver l s) := by
  simp only [frameMalformed, isWrite_cons hb, hm, hr, Bool.true_eq_false, or_self, Bool.false_eq_true, if_false]

theorem frameThrownAway_held (hr : s.pins.rstnHeld = true) (hb : b ≠ 0#8) : frameThrownAway l (b :: rest) s = writeOver l s := by
  simp [frameThrownAway, isWrite_cons hb, hr]

/-- A discarded frame counts for presence where its length agrees (R203). -/
theorem frameThrownAway_busy (hr : s.pins.rstnHeld = false) (hb : b ≠ 0#8) (hi : (s.link l).exch ≠ .idle) :
    frameThrownAway l (b :: rest) s =
      discardFrame l (if malformed (b :: rest) then writeOver l s else touchPresence l s) := by
  simp only [frameThrownAway, isWrite_cons hb, hr, Bool.true_eq_false, Bool.false_eq_true, if_false]

variable {code tag : Byte}

theorem frameUnknown_held (hr : s.pins.rstnHeld = true) (hu : unknownCode code = true) : frameUnknown l code tag s = writeOver l s := by
  simp [frameUnknown, hu, hr]

/-- An unknown code in IDLE is answered by steps 1 and 2 of R201. -/
theorem frameUnknown_idle (hr : s.pins.rstnHeld = false) (hu : unknownCode code = true) (hi : (s.link l).exch = .idle) :
    frameUnknown l code tag s =
      respond l { code := code, tag := tag, status := unknownStatus s, payload := [] } (touchPresence l s) := by
  simp [frameUnknown, hu, hr, hi]

theorem frameUnknown_busy (hr : s.pins.rstnHeld = false) (hu : unknownCode code = true) (hi : (s.link l).exch ≠ .idle) :
    frameUnknown l code tag s = discardFrame l (touchPresence l s) := by
  simp only [frameUnknown, hu, hr, Bool.true_eq_false, Bool.false_eq_true, if_false, touchPresence_exch]

end Frames

/-- A malformed frame on a busy link sets the discard indication and leaves presence (R203, R205). -/
theorem discardFrame_writeOver (l : Link) (s : State) :
    discardFrame l (writeOver l s) = s.setLink l { s.link l with discard := true, fetched := [] } := by
  simp [discardFrame, writeOver]

/-- A discarded frame leaves the request held or the response waiting, and sets the discard indication (R203). -/
theorem discardFrame_link (l : Link) (s : State) : (discardFrame l s).link l = { s.link l with discard := true } :=
  setLink_link s l _

/-- A reset under chip select leaves the transfer without a command (R214). -/
theorem command_cutByReset (l : Link) (idle : Bool) (bytes : List Byte) :
    ({ link := l, bytes := bytes, cutByReset := true } : Transfer).command idle = none := rfl

/-- After a request frame's arrival every byte position of its transfer had 0x00 on data out (R200). -/
theorem dataOut_touchPresence (l : Link) (s : State) (i : Nat) : dataOut (touchPresence l s) l i = 0#8 := by
  simp [dataOut]

/-- Settles O55: while RSTN is held, then for a reset under chip select, then with RSTN released, on an IDLE and on a busy link. -/
theorem framesThatReachNoBlock : Obligations.FramesThatReachNoBlock := by
  intro l s
  refine ⟨fun hr tag code b bs rest r hb => ?_, command_cutByReset l, fun hr => ⟨dataOut_touchPresence l s, fun b rest hb hm => ?_,
    fun hi => ?_⟩⟩
  · obtain ⟨α, p, block, hserve⟩ := exec_decodeRequest l tag bs r
    exact ⟨(hserve s).trans (congrArg _ (serve_held l tag r p block hr)), fun hu => congrArg _ (frameUnknown_held hr hu),
      congrArg _ (frameThrownAway_held hr hb), fun hm => congrArg _ (frameMalformed_held hr hb hm)⟩
  · refine ⟨fun hi => ?_, fun hi => ⟨?_, ?_⟩⟩
    · rw [exec_frameError, frameMalformed_idle hr hb hm hi]
      simp [respond, writeOver]
    · rw [exec_frameError, frameMalformed_busy hr hb hm hi, discardFrame_writeOver]
    · rw [exec_frameDiscarded, frameThrownAway_busy hr hb hi, if_pos hm, discardFrame_writeOver]
  · refine ⟨fun tag bs r => ?_, fun code tag hu => congrArg _ (frameUnknown_busy hr hu hi), fun b rest hb hm => ?_, ?_, ?_,
      fun hs => ?_⟩
    · obtain ⟨α, p, block, hserve⟩ := exec_decodeRequest l tag bs r
      exact (hserve s).trans (congrArg _ (serve_busy l tag r p block s hr hi))
    · rw [exec_frameDiscarded, frameThrownAway_busy hr hb hi, if_neg (by simp [hm])]
    · rw [discardFrame_link, touchPresence_exch]
    · rw [discardFrame_link]
    · rw [discardFrame_link]
      exact touchPresence_present l s hs

/-- Settles O56: each check of R201 where those before it pass. -/
theorem linkChecksComeInOrder : Obligations.LinkChecksComeInOrder := by
  intro l tag bs r s hr hi
  have hst : (touchPresence l s).session.st = s.session.st := by simp
  obtain ⟨α, p, block, hserve⟩ := exec_decodeRequest l tag bs r
  have hanswer := (hserve s).trans (congrArg _ (serve_idle l tag r p block s hr hi))
  refine ⟨fun hs hg => ?_, fun hs => ⟨touchPresence_start l s hs, ?_⟩, fun hs hc => ?_, fun hs code hu => ?_,
    fun hs code hu => ?_, fun hs hc hbs hbare => ?_⟩
  · rw [hanswer, answer_start p block (hst.trans hs) hg, deliver_refuse]
  · refine congrArg _ ((serve_idle l tag .getStatus (.fields ()) getStatus s hr hi).trans ?_)
    rw [answer_getStatus, touchPresence_start l s hs, ← statusPayload_writeOver l s]
    rfl
  · rw [hanswer, answer_notCarried p block (hst ▸ hs) hc, deliver_refuse]
  · rw [exec_unknownRequest, frameUnknown_idle hr hu hi, unknownStatus, if_neg hs]
    rfl
  · rw [exec_unknownRequest, frameUnknown_idle hr hu hi, unknownStatus, if_pos hs]
    rfl
  · obtain ⟨block', hserve'⟩ := exec_decodeRequest_bare l tag bs hbare
    rw [hserve', serve_idle _ _ _ _ _ _ hr hi, readAll_readUnit hbs, answer_badLength block' (hst ▸ hs) hc, deliver_refuse]

end Sys2Proof.Machine

/-! A request encoded and read back (O59): each reader of a payload takes from the front of the bytes exactly what its encoder wrote, so a
request's own bytes are read whole, and its frame makes the request again. -/

namespace Sys2Proof.Machine

/-! ### Readers and what they read -/

/-- The reader takes exactly the bytes `bs` from the front and gives `a`, whatever follows. -/
def Reads {α : Type} (rd : Reader α) (a : α) (bs : List Byte) : Prop := ∀ rest, rd (bs ++ rest) = some (a, rest)

section Readers
variable {α β : Type} {rd : Reader α} {enc : α → List Byte} {a : α} {bs cs : List Byte}

/-- A payload that its fields fill is read whole (R201 step 4). -/
theorem Reads.readAll (h : Reads rd a bs) : readAll rd bs = .fields a := by
  have hrd : rd bs = some (a, []) := by simpa using h []
  simp [Sys2Proof.readAll, hrd]

/-- A value without bytes of its own. -/
theorem reads_give (a : α) : Reads (give a) a [] := fun _ => rfl

/-- One field after another. -/
theorem Reads.andThen {rb : α → Reader β} {b : β} (ha : Reads rd a bs) (hb : Reads (rb a) b cs) :
    Reads (andThen rd rb) b (bs ++ cs) := fun rest => by
  rw [List.append_assoc, Sys2Proof.andThen, ha]
  exact hb rest

/-- The last field of a payload. -/
theorem Reads.andGive {f : α → β} (ha : Reads rd a bs) : Reads (Sys2Proof.andThen rd fun x => give (f x)) (f a) bs := by
  simpa using Reads.andThen (rb := fun x => give (f x)) ha (reads_give (f a))

/-- A reader's value taken through a function. -/
theorem Reads.map {rb : Reader β} {f : α → β} (ha : Reads rd a bs)
    (hb : ∀ cs, rb cs = (rd cs).map fun p => (f p.1, p.2)) : Reads rb (f a) bs := fun rest => by
  rw [hb, ha]
  rfl

/-- An optional field with its presence byte (R217). -/
theorem reads_opt (o : Option α) (h : ∀ a, o = some a → Reads rd a (enc a)) : Reads (readOpt rd) o (optField enc o) := fun rest => by
  cases o with
  | none => rfl
  | some a => simp [readOpt, optField, h a rfl rest]

/-- Members one after another, as many as there are. -/
theorem reads_many (as : List α) (h : ∀ a ∈ as, Reads rd a (enc a)) : Reads (readMany rd as.length) as (as.flatMap enc) := by
  induction as with
  | nil => exact fun _ => rfl
  | cons a as ih =>
    intro rest
    have hfirst := h a List.mem_cons_self (as.flatMap enc ++ rest)
    have hothers := ih (fun x hx => h x (List.mem_cons_of_mem a hx)) rest
    simp [readMany, hfirst, hothers]

end Readers

/-! ### Numbers, texts and lists (R217) -/

/-- The digits written are read back on top of those read before them. -/
theorem foldl_beDigits (w n : Nat) : ∀ acc : Nat,
    (beDigits w n).foldl (fun x b => x * 256 + b.toNat) acc = acc * 256 ^ w + n % 256 ^ w := by
  induction w with
  | zero => simp [beDigits, Nat.mod_one]
  | succ w ih =>
    intro acc
    calc (beDigits (w + 1) n).foldl (fun x b => x * 256 + b.toNat) acc
        = (acc * 256 + n / 256 ^ w % 256) * 256 ^ w + n % 256 ^ w := by simp [beDigits, ih]
      _ = acc * 256 ^ (w + 1) + n % 256 ^ (w + 1) := by rw [pow_succ, Nat.mod_mul]; ring

/-- A field reads back as the number it holds. -/
theorem ofBe_be {w n : Nat} (h : fits w n = true) : ofBe (be w n) = n := by
  have hlt : n < 256 ^ w := by simpa [fits] using h
  rw [be, if_pos hlt, ofBe, foldl_beDigits, Nat.mod_eq_of_lt hlt]
  omega

/-- A run of bytes of the length asked for. -/
theorem reads_bytes {w : Nat} {bs : List Byte} (h : bs.length = w) : Reads (readBytes w) bs bs := fun rest => by
  simp [readBytes, ← h]

/-- A number in the field of its width. -/
theorem reads_num {w n : Nat} (h : fits w n = true) : Reads (readNum w) n (be w n) := by
  have hread := (reads_bytes (length_be w n)).map (rb := readNum w) (f := ofBe) fun _ => rfl
  rwa [ofBe_be h] at hread

/-- The number that two bytes hold in two's complement. -/
def signedOf (m : Nat) : Int := if 32768 ≤ m then (m : Int) - 65536 else m

/-- A signed number is read as the two's complement of the number in its field. -/
theorem readSigned_eq (bs : List Byte) : readSigned bs = (readNum 2 bs).map fun p => (signedOf p.1, p.2) := rfl

/-- A number with negative values, in two's complement. -/
theorem reads_signed {n : Int} (hlo : -32768 ≤ n) (hhi : n ≤ 32767) : Reads readSigned n (beSigned 2 n) := by
  have hfit : fits 2 (n % (256 ^ 2 : Nat)).toNat = true := by simp [fits]; omega
  have henc : beSigned 2 n = be 2 (n % (256 ^ 2 : Nat)).toNat := by
    rw [be, if_pos (by simpa [fits] using hfit), beSigned]
  have hval : signedOf (n % (256 ^ 2 : Nat)).toNat = n := by
    unfold signedOf
    split <;> omega
  have hread := (reads_num hfit).map readSigned_eq
  rw [henc]
  rwa [hval] at hread

/-- A text is its length byte's number of characters. -/
theorem readText_eq : readText = andThen (readNum 1) readBytes := by
  funext bs
  rw [readText, andThen]
  cases readNum 1 bs <;> rfl

/-- A list is its count byte's number of members. -/
theorem readList_eq {α : Type} (rd : Reader α) : readList rd = andThen (readNum 1) (readMany rd) := by
  funext bs
  rw [readList, andThen]
  cases readNum 1 bs <;> rfl

theorem reads_text {t : List Byte} (h : fits 1 t.length = true) : Reads readText t (textField t) :=
  readText_eq ▸ (reads_num h).andThen (rb := readBytes) (reads_bytes rfl)

theorem reads_list {α : Type} {rd : Reader α} {enc : α → List Byte} {as : List α} (hn : fits 1 as.length = true)
    (h : ∀ a ∈ as, Reads rd a (enc a)) : Reads (readList rd) as (listField enc as) :=
  readList_eq rd ▸ (reads_num hn).andThen (rb := readMany rd) (reads_many as h)

/-- An optional number, absent or in the field of its width. -/
theorem reads_optNum {w : Nat} {o : Option Nat} (h : fitsOpt w o = true) : Reads (readOpt (readNum w)) o (optField (be w) o) :=
  reads_opt o fun n hn => reads_num (by simpa [hn, fitsOpt] using h)

/-- A stroke's set of 24 bits. -/
theorem reads_set (p : BitVec 24) : Reads readSet p (be 3 p.toNat) := by
  have hfit : fits 3 p.toNat = true := decide_eq_true p.isLt
  have hread := (reads_num hfit).map (rb := readSet) (f := BitVec.ofNat 24) fun _ => rfl
  rwa [BitVec.ofNat_toNat, BitVec.setWidth_eq] at hread

theorem reads_key {k : List (BitVec 24)} (h : keyFits k = true) : Reads readKey k (encKey k) :=
  reads_list h fun p _ => reads_set p

/-! ### The payloads of the requests -/

theorem reads_unit (u : Unit) : Reads readUnit u (encUnit u) := reads_give ()

theorem reads_entry {e : RawEntry} (h : e.fit = true) : Reads readEntry e (encEntry e) := by
  simp only [RawEntry.fit, Bool.and_eq_true] at h
  obtain ⟨hkey, htext⟩ := h
  rw [encEntry, List.append_assoc]
  exact (reads_key hkey).andThen ((reads_text htext).andThen (reads_bytes (bs := [e.flags]) rfl).andGive)

theorem reads_start {st : LineStart} (h : st.fit = true) : Reads readStart st (encStart st) := fun rest => by
  cases st with
  | serial n => simp [readStart, encStart, reads_num h rest]
  | pageLine p n =>
    simp only [LineStart.fit, Bool.and_eq_true] at h
    obtain ⟨hpage, hline⟩ := h
    exact (reads_num hpage).andThen (reads_num hline).andGive rest

theorem reads_readLines {a : ReadLinesArgs} (h : (a.start.fit && fits 1 a.count) = true) :
    Reads readReadLines a (encStart a.start ++ be 1 a.count) := by
  simp only [Bool.and_eq_true] at h
  obtain ⟨hstart, hcount⟩ := h
  exact (reads_start hstart).andThen (reads_num hcount).andGive

theorem reads_setMark {a : SetMarkArgs} (h : (fits 4 a.serial && fits 1 a.kind && fits 1 (a.label.getD []).length) = true) :
    Reads readSetMark a (be 4 a.serial ++ be 1 a.kind ++ optField textField a.label) := by
  simp only [Bool.and_eq_true] at h
  obtain ⟨⟨hserial, hkind⟩, hlabel⟩ := h
  have htext : Reads (readOpt readText) a.label (optField textField a.label) :=
    reads_opt a.label fun t ht => reads_text (by simpa [ht] using hlabel)
  rw [List.append_assoc]
  exact (reads_num hserial).andThen ((reads_num hkind).andThen htext.andGive)

theorem reads_listMarks {a : ListMarksArgs} (h : (fits 1 a.filter && fits 4 a.serial && fits 1 a.id) = true) :
    Reads readListMarks a (be 1 a.filter ++ be 4 a.serial ++ be 1 a.id) := by
  simp only [Bool.and_eq_true] at h
  obtain ⟨⟨hfilter, hserial⟩, hid⟩ := h
  rw [List.append_assoc]
  exact (reads_num hfilter).andThen ((reads_num hserial).andThen (reads_num hid).andGive)

theorem reads_params {a : ParamArgs} (h : a.fit = true) : Reads readParams a (encParams a) := by
  simp only [ParamArgs.fit, Bool.and_eq_true] at h
  obtain ⟨⟨⟨⟨⟨⟨⟨hres, hwidth⟩, hpage⟩, hsettle⟩, hinterval⟩, hdeglitch⟩, hrep⟩, hbench⟩ := h
  simp only [encParams, List.append_assoc]
  exact (reads_optNum hres).andThen <| (reads_optNum hwidth).andThen <| (reads_optNum hpage).andThen <|
    (reads_optNum hsettle).andThen <| (reads_optNum hinterval).andThen <| (reads_optNum hdeglitch).andThen <|
    (reads_optNum hrep).andThen (reads_optNum hbench).andGive

theorem reads_keyCond {a : KeyCondArgs} (h : a.fit = true) :
    Reads readKeyCond a (be 1 a.key ++ beSigned 2 a.offset ++ be 1 a.gain ++ be 2 a.press ++ be 2 a.light) := by
  simp only [KeyCondArgs.fit, Bool.and_eq_true, decide_eq_true_eq] at h
  obtain ⟨⟨⟨⟨hkey, hlo, hhi⟩, hgain⟩, hpress⟩, hlight⟩ := h
  simp only [List.append_assoc]
  exact (reads_num hkey).andThen <| (reads_signed hlo hhi).andThen <| (reads_num hgain).andThen <|
    (reads_num hpress).andThen (reads_num hlight).andGive

theorem reads_timing {a : ChordTimingArgs} (h : a.fit = true) :
    Reads readTiming a
      (be 1 a.pressCount ++ be 1 a.releaseCount ++ be 1 a.hysteresis ++ be 2 a.holdLimit ++ be 2 a.scanInterval) := by
  simp only [ChordTimingArgs.fit, Bool.and_eq_true] at h
  obtain ⟨⟨⟨⟨hpress, hrelease⟩, hhyst⟩, hhold⟩, hscan⟩ := h
  simp only [List.append_assoc]
  exact (reads_num hpress).andThen <| (reads_num hrelease).andThen <| (reads_num hhyst).andThen <|
    (reads_num hhold).andThen (reads_num hscan).andGive

theorem reads_entries {es : List RawEntry} (h : (fits 1 es.length && es.all RawEntry.fit) = true) :
    Reads (readList readEntry) es (listField encEntry es) := by
  simp only [Bool.and_eq_true, List.all_eq_true] at h
  obtain ⟨hcount, hfit⟩ := h
  exact reads_list hcount fun e he => reads_entry (hfit e he)

theorem reads_edit {a : EditLineArgs} (h : (fits 4 a.serial && fits 1 a.text.length) = true) :
    Reads readEdit a (be 4 a.serial ++ textField a.text) := by
  simp only [Bool.and_eq_true] at h
  obtain ⟨hserial, htext⟩ := h
  exact (reads_num hserial).andThen (reads_text htext).andGive

theorem reads_setFeed {a : SetFeedArgs} (h : a.fit = true) :
    Reads readSetFeed a (be 1 a.feed ++ be 1 a.audience ++ be 1 a.rate ++ be 2 a.backfill ++ be 2 a.idle ++ be 2 a.stall) := by
  simp only [SetFeedArgs.fit, Bool.and_eq_true] at h
  obtain ⟨⟨⟨⟨⟨hfeed, haudience⟩, hrate⟩, hbackfill⟩, hidle⟩, hstall⟩ := h
  simp only [List.append_assoc]
  exact (reads_num hfeed).andThen <| (reads_num haudience).andThen <| (reads_num hrate).andThen <|
    (reads_num hbackfill).andThen <| (reads_num hidle).andThen (reads_num hstall).andGive

theorem reads_testFeed {a : TestFeedArgs} (h : (fits 1 a.feed && fits 1 a.count) = true) :
    Reads readTestFeed a (be 1 a.feed ++ be 1 a.count) := by
  simp only [Bool.and_eq_true] at h
  obtain ⟨hfeed, hcount⟩ := h
  exact (reads_num hfeed).andThen (reads_num hcount).andGive

theorem reads_feedSet (b : Byte) : Reads readFeedSet b [b] := (reads_bytes (bs := [b]) rfl).andGive

/-! ### The frame (R216) -/

/-- A request's code names it. -/
theorem Req.ofCode_code (r : Req) : Req.ofCode r.code = some r := by
  cases r <;> decide

/-- No request has the code 0x00, with which a fetch begins (R200, R216). -/
theorem Req.code_ne_zero (r : Req) : r.code ≠ 0#8 := by
  cases r <;> decide

section Frame
variable {r : Req} {tag : Byte} {payload : List Byte}

/-- A frame states its payload's length. -/
theorem frameBytes_statedLength (h : payload.length ≤ payloadLimit) :
    ofBe (((frameBytes r tag payload).drop 2).take 2) = payload.length := by
  have hfit : fits 2 payload.length = true := by
    simp only [payloadLimit] at h
    simp only [fits, decide_eq_true_eq]
    omega
  simpa [frameBytes, List.take_append] using ofBe_be hfit

/-- A frame's payload follows its first four bytes. -/
theorem frameBytes_payload : (frameBytes r tag payload).drop 4 = payload := by
  simp [frameBytes]

theorem length_frameBytes : (frameBytes r tag payload).length = 4 + payload.length := by
  simp [frameBytes]
  omega

/-- A request frame within its largest size is not malformed (R205). -/
theorem frameBytes_wellFormed (h : payload.length ≤ payloadLimit) : malformed (frameBytes r tag payload) = false := by
  simp [malformed, frameBytes_statedLength h, length_frameBytes, h]

/-- A request frame on an IDLE link makes the command of its request. -/
theorem decodeTransfer_frameBytes (l : Link) (h : payload.length ≤ payloadLimit) :
    decodeTransfer l true (frameBytes r tag payload) = some (decodeRequest l tag payload r) := by
  have hm : malformed (r.code :: tag :: (be 2 payload.length ++ payload)) = false := frameBytes_wellFormed (r := r) (tag := tag) h
  have hp : (be 2 payload.length ++ payload).drop 2 = payload := frameBytes_payload (r := r) (tag := tag)
  simp [decodeTransfer, frameBytes, hm, hp, Req.code_ne_zero, decodeFrame, Req.ofCode_code]

end Frame

/-- Every payload of a request without operands is in its field. -/
theorem ok_true {α : Type} (p : Payload α) : p.ok (fun _ => true) = true := by
  cases p <;> rfl

/-- A request whose payload's encoding is read back, and whose frame is within its largest size, is made again from its frame. -/
theorem decodeTransfer_encodeWith {α : Type} {l m : Link} {r : Req} {tag : Byte} {enc : α → List Byte} {p : Payload α}
    {bytes : List Byte} {rd : Reader α} {ok : α → Bool} {make : Payload α → Instr} (he : encodeWith l r tag enc p = some (m, bytes))
    (hlen : bytes.length ≤ 4 + payloadLimit) (hok : p.ok ok = true) (hread : ∀ {a}, ok a = true → Reads rd a (enc a))
    (hmake : ∀ bs, decodeRequest l tag bs r = make (readAll rd bs)) : decodeTransfer m true bytes = some (make p) := by
  cases p with
  | badLength => simp [encodeWith] at he
  | fields a =>
    simp only [encodeWith, Option.some.injEq, Prod.mk.injEq] at he
    obtain ⟨rfl, rfl⟩ := he
    rw [length_frameBytes] at hlen
    rw [decodeTransfer_frameBytes l (by omega), hmake, (hread hok).readAll]

/-- Settles O59: request by request, each payload's reader against its encoder; the events have no encoding. -/
theorem encodedRequestsDecode : Obligations.EncodedRequestsDecode := by
  intro i m bytes hwf he
  obtain ⟨hok, hfit⟩ : i.operandsOk = true ∧ i.frameFits = true := by simpa [Instr.wf] using hwf
  have hlen : bytes.length ≤ 4 + payloadLimit := by simpa [Instr.frameFits, he] using hfit
  cases i with
  | getStatus l tag p | readAttention l tag p | readFeedHealth l tag p | zeroKeys l tag p | readKeyDepths l tag p
  | beginMainLoad l tag p | endMainLoad l tag p | openGroup l tag p | commitGroup l tag p | abandonGroup l tag p
  | clearJobTier l tag p | openSession l tag p | recess l tag p | resume l tag p | closeSession l tag p | resetPart l tag p
  | closeJournalBlock l tag p | journalSummary l tag p =>
    exact decodeTransfer_encodeWith he hlen (ok_true p) (fun _ => reads_unit _) fun _ => rfl
  | removeMark l tag p | readJournalBlock l tag p | releaseJournalBlock l tag p | enableFeed l tag p | disableFeed l tag p
  | setClass l tag p => exact decodeTransfer_encodeWith he hlen hok reads_num fun _ => rfl
  | stageRemove l tag p | lookUp l tag p => exact decodeTransfer_encodeWith he hlen hok reads_key fun _ => rfl
  | holdFeeds l tag p | releaseFeeds l tag p =>
    exact decodeTransfer_encodeWith he hlen (ok_true p) (fun _ => reads_feedSet _) fun _ => rfl
  | readLines l tag p => exact decodeTransfer_encodeWith he hlen hok reads_readLines fun _ => rfl
  | setMark l tag p => exact decodeTransfer_encodeWith he hlen hok reads_setMark fun _ => rfl
  | listMarks l tag p => exact decodeTransfer_encodeWith he hlen hok reads_listMarks fun _ => rfl
  | setTranslationParameters l tag p => exact decodeTransfer_encodeWith he hlen hok reads_params fun _ => rfl
  | setKeyConditioning l tag p => exact decodeTransfer_encodeWith he hlen hok reads_keyCond fun _ => rfl
  | setChordTiming l tag p => exact decodeTransfer_encodeWith he hlen hok reads_timing fun _ => rfl
  | loadEntries l tag p => exact decodeTransfer_encodeWith he hlen hok reads_entries fun _ => rfl
  | stageDefine l tag p => exact decodeTransfer_encodeWith he hlen hok reads_entry fun _ => rfl
  | editLine l tag p => exact decodeTransfer_encodeWith he hlen hok reads_edit fun _ => rfl
  | setFeed l tag p => exact decodeTransfer_encodeWith he hlen hok reads_setFeed fun _ => rfl
  | testFeed l tag p => exact decodeTransfer_encodeWith he hlen hok reads_testFeed fun _ => rfl
  | _ => simp [encodeRequest] at he

end Sys2Proof.Machine
